-- ==== Sys2Proof/Word.lean ====
section
/-! DEFINITION. The words of the block: bytes, port words, CRAM entries and banks of bytes. -/

namespace Sys2Proof

/-- A byte: a mode register, a byte of a memory bank, a byte on an 8-bit port. -/
abbrev Byte := BitVec 8

/-- A word on the 16-bit port. -/
abbrev Word := BitVec 16

/-- A CRAM entry: 9 significant bits, blue, green and red of three bits each (R73). -/
abbrev Colour := BitVec 9

/-- A memory bank: the bytes that differ from 0, by index. -/
abbrev Memory := List Host.Cell

end Sys2Proof
end

