-- ==== Sys2Proof/Machine/Memory.lean ====
section
/-! DEFINITION. A memory bank as a list of (index, byte) cells in one canonical form: indices strictly
rising, no byte equal to 0, which is what an unlisted index reads as (the reset contents of every
bank, R39, R44). -/

namespace Sys2Proof

/-- The byte at an index; an unlisted index reads 0 (R39, R44). -/
def Memory.read : Memory → Nat → Byte
  | [], _ => 0#8
  | (k, v) :: m, a => if a = k then v else Memory.read m a

/-- A bank without the cell of an index. -/
def Memory.erase (m : Memory) (a : Nat) : Memory :=
  m.filter (fun c => decide (c.1 ≠ a))

/-- A cell put at its place by index. -/
def Memory.insert (a : Nat) (v : Byte) : Memory → Memory
  | [] => [(a, v)]
  | (k, w) :: m => if a < k then (a, v) :: (k, w) :: m else (k, w) :: Memory.insert a v m

/-- Writing a byte. Writing 0 removes the cell. -/
def Memory.write (m : Memory) (a : Nat) (v : Byte) : Memory :=
  if v = 0#8 then Memory.erase m a else Memory.insert a v (Memory.erase m a)

/-- From index `lo` on, below `size`: indices strictly rising, no byte 0. -/
def Memory.wfFrom (lo size : Nat) : Memory → Bool
  | [] => true
  | (k, v) :: m =>
    decide (lo ≤ k) && decide (k < size) && decide (v ≠ 0#8) && Memory.wfFrom (k + 1) size m

/-- The canonical form of a bank of `size` bytes. -/
def Memory.wf (size : Nat) (m : Memory) : Bool := Memory.wfFrom 0 size m

/-- The set of dirty tiles (R40) with one tile more: a strictly rising list of tile indices. -/
def markTile (i : Nat) : List Nat → List Nat
  | [] => [i]
  | k :: l => if i < k then i :: k :: l else if i = k then k :: l else k :: markTile i l

/-- The canonical form of the dirty set from tile `lo` on: strictly rising, each below 2048 (R40). -/
def tilesFrom (lo : Nat) : List Nat → Bool
  | [] => true
  | k :: l => decide (lo ≤ k) && decide (k < 2048) && tilesFrom (k + 1) l

end Sys2Proof
end

