-- ==== Sys2Proof/Config.lean ====
section
/-! DEFINITION. The configuration of an instance (R3, R8, R20): a record fixed for its life, and
the free values the spec leaves open, which no proof can evaluate. -/

namespace Sys2Proof

/-- The five variants of R3. -/
inductive Variant where
  | v68k     -- Mega Drive VDP driven by the 68000 over a 16-bit port
  | vz80Md4  -- Mega Drive VDP in Mode 4 driven by the Z80 over an 8-bit port
  | vz80Sms  -- Master System VDP
  | vz80Gg   -- Game Gear VDP
  | vTms     -- TMS9918-derived / SG-1000 VDP
deriving DecidableEq, Repr

/-- The variant with the 16-bit port (R3, R84). -/
def Variant.isWord : Variant → Bool
  | .v68k => true
  | .vz80Md4 => false
  | .vz80Sms => false
  | .vz80Gg => false
  | .vTms => false

/-- The variants with an 8-bit port (R3, R84). -/
def Variant.isByte : Variant → Bool
  | .v68k => false
  | .vz80Md4 => true
  | .vz80Sms => true
  | .vz80Gg => true
  | .vTms => true

/-- The variants the spec writes `VZ80_*`. -/
def Variant.isZ80 : Variant → Bool
  | .v68k => false
  | .vz80Md4 => true
  | .vz80Sms => true
  | .vz80Gg => true
  | .vTms => false

/-- The TMS9918-derived variant. -/
def Variant.isTms : Variant → Bool
  | .v68k => false
  | .vz80Md4 => false
  | .vz80Sms => false
  | .vz80Gg => false
  | .vTms => true

/-- Every variant (host operations). -/
def Variant.isAny : Variant → Bool
  | .v68k => true
  | .vz80Md4 => true
  | .vz80Sms => true
  | .vz80Gg => true
  | .vTms => true

/-- The DMA kinds (R36). -/
inductive DmaKind where
  | vbusToVram
  | vramFill
  | vramCopy
deriving DecidableEq, Repr

/-- The rendering modes (R41). -/
inductive RenderMode where
  | tms
  | mode4
  | mode5Progressive
  | mode5Interlaced
deriving DecidableEq, Repr

/-- The display heights (R41). -/
inductive DisplayLines where
  | lines192
  | lines224
  | lines240
deriving DecidableEq, Repr

/-- Four naturals keyed by two Booleans: the shape of `FIFO_LATENCY` and `DMA_RATE` (R8). -/
structure Quad where
  ff : Nat
  ft : Nat
  tf : Nat
  tt : Nat
deriving DecidableEq, Repr

/-- The value of a four-entry table at a pair of keys. -/
def Quad.pick (q : Quad) : Bool → Bool → Nat
  | false, false => q.ff
  | false, true => q.ft
  | true, false => q.tf
  | true, true => q.tt

/-- Every value of a four-entry table is at least `n`. -/
def Quad.atLeast (q : Quad) (n : Nat) : Bool :=
  decide (n ≤ q.ff) && decide (n ≤ q.ft) && decide (n ≤ q.tf) && decide (n ≤ q.tt)

/-- The register file as the rules read it: the named fields of R29, which are all any rule reads (R29, R30).
A `dmaKind` of 0b00 and one of 0b01 are told apart by bit 6 of `dmaSrcHi`. -/
structure RegFields where
  m5 : Bool
  m4sel : Bool
  m2 : Bool
  m1 : Bool
  m3 : Bool
  hvLatchEn : Bool
  v30 : Bool
  dmaEn : Bool
  dispEn : Bool
  bigVram : Bool
  satReg : Byte
  backdropIdx : BitVec 6
  h40 : Bool
  lsm : BitVec 2
  inc : Byte
  dmaLen : Word
  dmaSrcLo : Word
  dmaSrcHi : BitVec 7
  dmaKind : DmaKind
deriving DecidableEq, Repr

/-- What is known of an instance's `SAT_RANGE : regs -> (base, size)` (R8, R75). -/
inductive SatRange where
  /-- Its values at some register files; free at every other one (log entry 3). -/
  | table (l : List (RegFields × (Word × Nat)))
  /-- The same base and size whatever the registers. -/
  | constant (base : Word) (size : Nat)
  /-- The candidate formulas of R75, by rendering mode (not normative). -/
  | candidate
deriving DecidableEq, Repr

/-- The configuration record (R20). A parameter that is a function is given by the values the
instance is known to have; where the list gives none the value is a free constant below
(log entries 2, 3, 5; DESIGN CHOICE, safe). -/
structure Config where
  /-- `VARIANT` (R3). -/
  variant : Variant
  /-- `PAL` (R8). -/
  pal : Bool
  /-- `CYCLES_PER_LINE`, > 0 (R8). -/
  cyclesPerLine : Nat
  /-- `LINES_PER_FRAME`, > 0 (R8). -/
  linesPerFrame : Nat
  /-- `FIFO_LATENCY` keyed by (h40, vramTarget), each > 0 (R241). -/
  fifoLatency : Quad
  /-- `DMA_RATE` keyed by (blank, h40), each ≥ 2 (R266). -/
  dmaRate : Quad
  /-- `Z80_REG_MASK` (R105). -/
  z80RegMask : Byte
  /-- `DMA_SOURCE_WRITEBACK` (R274). -/
  dmaSourceWriteback : Bool
  /-- Whether `VBLANK_REMAINING` is the default formula of R268; otherwise it is free. -/
  vblankByFrame : Bool
  /-- Known values of `VC_MAX` for this instance's `PAL` (R223). -/
  vcMax : List ((RenderMode × DisplayLines) × Nat)
  /-- Known values of `HC_TABLE` by position while `h40 = 0` (R224). -/
  hc32 : List Byte
  /-- Known values of `HC_TABLE` by position while `h40 = 1` (R224). -/
  hc40 : List Byte
  /-- What is known of `SAT_RANGE` (R75). -/
  satRange : SatRange
  /-- Known values of `TMS_4K_MAP` (R157). -/
  tms4kMap : List (BitVec 14 × BitVec 14)
  /-- Words the external bus is known to return, by byte address (R82). -/
  busWords : List (BitVec 24 × Word)
deriving DecidableEq, Repr

/-- The bounds R8 puts on the parameters. -/
def Config.ok (c : Config) : Bool :=
  decide (0 < c.cyclesPerLine) && decide (0 < c.linesPerFrame) &&
  c.fifoLatency.atLeast 1 && c.dmaRate.atLeast 2

/-- The instance `State.reset` is the reset of: the Mega Drive driven by the 68000, NTSC, with the
spec's non-normative candidate values (R241, R266, R353; PRESUMED, log entry 2). -/
def Config.initial : Config where
  variant := .v68k
  pal := false
  cyclesPerLine := 3420
  linesPerFrame := 262
  fifoLatency := ⟨214, 428, 190, 380⟩
  dmaRate := ⟨16, 18, 167, 205⟩
  z80RegMask := 0x0F#8
  dmaSourceWriteback := false
  vblankByFrame := true
  vcMax := []
  hc32 := []
  hc40 := []
  satRange := .table []
  tms4kMap := []
  busWords := []

/-- `draw`: the n-th free value of a run (R10, R193 to R196, R211, R212; log entry 4). -/
opaque Config.freeDraw : Nat → Word

/-- The external bus: the word of the n-th free read at an address (R82; log entry 5). Two reads of
one address may differ. -/
opaque Config.freeBusWord : Nat → BitVec 24 → Word

/-- Which of the two outcomes of R196 the n-th free choice takes: true, the CPU is stuck
(log entry 6). -/
opaque Config.freeStuck : Nat → Bool

/-- `VBLANK_REMAINING` (R268) where it is not the default formula. -/
opaque Config.freeVblankRemaining : Nat → Nat

/-- `VC_MAX` (R223) keyed by rendering mode, display height and `PAL`. -/
opaque Config.freeVcMax : RenderMode → DisplayLines → Bool → Nat

/-- `HC_TABLE` (R224) keyed by variant, `h40` and position in the line. -/
opaque Config.freeHc : Variant → Bool → Nat → Byte

/-- `TMS_4K_MAP` (R157). -/
opaque Config.freeTms4k : BitVec 14 → BitVec 14

/-- `SAT_RANGE` of a register file, by its named fields: base and size (R29, R75). -/
opaque Config.freeSatRange : Variant → RegFields → Word × Nat

end Sys2Proof
end

