-- ==== Sys2Proof/Access.lean ====
section
/-! DEFINITION. What the agents send the block: port accesses, host operations, renderer turns
(R83, R300, R308), and the save-state snapshot an operation can carry (R303). -/

namespace Sys2Proof

/-- The ports of the block (R83, R226). -/
inductive Port where
  | control
  | data
  | hv        -- the 16-bit HV counter of V68K
  | vCounter  -- the 8-bit vertical counter of the byte variants
  | hCounter  -- the 8-bit horizontal counter of the byte variants
deriving DecidableEq, Repr

/-- The fields `serialize` captures (R303). Not captured (R304): the configuration, the derived
caches, `fifoLatency`, the SAT shadow and the dirty set. -/
structure Snapshot where
  reg : Vector Byte 32
  addr : BitVec 16
  code : BitVec 6
  pending : Bool
  ctrlLatch : Byte
  readBuf : Word
  ggLatch : Byte
  status : Word
  fifoCount : Nat
  fifoLastWrite : Nat
  dmaType : Option DmaKind
  dmaRemaining : Nat
  dmaSource : BitVec 24
  fillArmed : Bool
  fillByte : Byte
  dmaEndCycles : Nat
  deferredCtrl : Option Word
  hvLatch : Option Word
  lastT : Nat
  vram : Memory
  cram : Memory
  vsram : Memory
deriving DecidableEq, Repr

/-- One operation as it arrives at the block, with the caller's timestamp (R11, R301): a port access
of one or two bytes, or a host operation (R114). Decoding the CPU's bus address into a port is the
host bus's (R83). -/
inductive Access where
  | write16 (p : Port) (w : Word) (t : Nat)
  | write8 (p : Port) (b : Byte) (t : Nat)
  | read16 (p : Port) (t : Nat)
  | read8 (p : Port) (t : Nat)
  | advance (t : Nat)
  | latchHv (t : Nat)
  | raster (setMask clearMask : Byte) (t : Nat)
  | reset (t : Nat)
  | serialize (t : Nat)
  | deserialize (snap : Snapshot) (t : Nat)
deriving DecidableEq, Repr

/-- What the block takes next: an operation, or a turn of the renderer, which reads between
operations and may clear the dirty set (R306). -/
inductive Event where
  | op (a : Access)
  | render (clearDirty : Bool)
deriving DecidableEq, Repr

end Sys2Proof
end

