-- ==== Sys2Proof/Syntax.lean ====
section
/-! DEFINITION. The operations of the block: one constructor for every row of spec/opcode_table.json
(R114). A constructor holds every field of the access, the ignored ones too, because a deferred control
write keeps the whole word (R281). `t` is the caller's timestamp (R11, R301). -/

namespace Sys2Proof

inductive Instr where
  /-- CTRL_RW (R101, R131): register write word `10 ign idx data`. -/
  | ctrlRw (ign : BitVec 1) (idx : BitVec 5) (data : Byte) (t : Nat)
  /-- CTRL_A1 (R102, R132): first address word, `cd` = CD1:CD0 (≠ 10), `a` = A13..A0. -/
  | ctrlA1 (cd : BitVec 2) (a : BitVec 14) (t : Nat)
  /-- CTRL_A2 (R103, R133): second address word, `cd` = CD5..CD2, `a` = A15:A14; `hi`, `mid` ignored. -/
  | ctrlA2 (hi : BitVec 8) (cd : BitVec 4) (mid : BitVec 2) (a : BitVec 2) (t : Nat)
  /-- CTRL_B1 (R104, R150): first byte of a byte sequence. -/
  | ctrlB1 (b : Byte) (t : Nat)
  /-- CTRL_B2_ADDR (R105, R151): second byte, `cd` ≠ 10, `a` = A13..A8. -/
  | ctrlB2Addr (cd : BitVec 2) (a : BitVec 6) (t : Nat)
  /-- CTRL_B2_REG (R105, R153): second byte `10 a`, register write. -/
  | ctrlB2Reg (a : BitVec 6) (t : Nat)
  /-- CTRL_T2_ADDR (R106, R155): second byte `0 rw a`. -/
  | ctrlT2Addr (rw : BitVec 1) (a : BitVec 6) (t : Nat)
  /-- CTRL_T2_REG (R106, R156): second byte `1 ign idx`. -/
  | ctrlT2Reg (ign : BitVec 4) (idx : BitVec 3) (t : Nat)
  /-- DATA_W16 (R107, R170). -/
  | dataW16 (w : Word) (t : Nat)
  /-- DATA_W8 (R107, R180, R183, R184). -/
  | dataW8 (v : Byte) (t : Nat)
  /-- DATA_R16 (R107, R190). -/
  | dataR16 (t : Nat)
  /-- DATA_R8 (R107, R198). -/
  | dataR8 (t : Nat)
  /-- CTRL_R16 (R107, R210). -/
  | ctrlR16 (t : Nat)
  /-- CTRL_R8 (R107, R211). -/
  | ctrlR8 (t : Nat)
  /-- HV_R16 (R107, R220). -/
  | hvR16 (t : Nat)
  /-- V_R8 (R226). -/
  | vR8 (t : Nat)
  /-- H_R8 (R226). -/
  | hR8 (t : Nat)
  /-- ADVANCE (R283). -/
  | advance (t : Nat)
  /-- LATCH_HV (R225). -/
  | latchHv (t : Nat)
  /-- RASTER (R307). -/
  | raster (setMask clearMask : Byte) (t : Nat)
  /-- RESET (R340). -/
  | reset (t : Nat)
  /-- SERIALIZE (R303). -/
  | serialize (t : Nat)
  /-- DESERIALIZE (R305). -/
  | deserialize (snap : Snapshot) (t : Nat)
deriving DecidableEq, Repr

end Sys2Proof
end

