-- ==== Sys2Proof/WellFormed.lean ====
section
/-! DEFINITION. When an operation's fields are ones its encoding can carry (R101 to R107), and when a
snapshot is one `serialize` could have written down (R303). -/

namespace Sys2Proof

/-- A CRAM bank: 128 bytes, and the upper byte of an entry holds only bit 8 (R73). -/
def cramForm (m : Memory) : Bool :=
  Memory.wf 128 m && m.all (fun c => decide (c.1 % 2 = 0) || decide (c.2 = 1#8))

/-- The stored status word holds only bits 1 to 7 (R34). -/
def statusForm (w : Word) : Bool := decide (w &&& 0xFF01#16 = 0#16)

/-- A snapshot in the form the state's fields have: banks canonical and within their sizes, counts in
range, only the stored status bits (R34, R35, R36, R39, R73). -/
def Snapshot.form (x : Snapshot) : Bool :=
  Memory.wf 65536 x.vram && cramForm x.cram && Memory.wf 128 x.vsram &&
  decide (x.fifoCount ≤ 4) && decide (x.dmaRemaining ≤ 65536) && statusForm x.status

/-- The fields are ones the row's encoding admits. -/
def Instr.wellFormed : Instr → Bool
  | .ctrlRw _ _ _ _ => true
  | .ctrlA1 cd _ _ => decide (cd ≠ 0b10#2)
  | .ctrlA2 _ _ _ _ _ => true
  | .ctrlB1 _ _ => true
  | .ctrlB2Addr cd _ _ => decide (cd ≠ 0b10#2)
  | .ctrlB2Reg _ _ => true
  | .ctrlT2Addr _ _ _ => true
  | .ctrlT2Reg _ _ _ => true
  | .dataW16 _ _ => true
  | .dataW8 _ _ => true
  | .dataR16 _ => true
  | .dataR8 _ => true
  | .ctrlR16 _ => true
  | .ctrlR8 _ => true
  | .hvR16 _ => true
  | .vR8 _ => true
  | .hR8 _ => true
  | .advance _ => true
  | .latchHv _ => true
  | .raster _ _ _ => true
  | .reset _ => true
  | .serialize _ => true
  | .deserialize snap _ => snap.form

/-- The fields are ones the row's encoding admits. -/
abbrev Instr.WellFormed (i : Instr) : Prop := i.wellFormed = true

end Sys2Proof
end

