-- ==== Sys2Proof/Decode.lean ====
section
/-! DEFINITION. The decoder: variant, `pending` and access to an operation (R100 to R107, R114), total and
rejecting by name; then the encoder, from the same encodings. -/

namespace Sys2Proof

/-- Why an access is no operation of the block. -/
inductive Reject where
  /-- A 68000 byte access to a port (R84). -/
  | byteAccess68K
  /-- A word access to a port of a byte variant, whose accesses are bytes (R84; log entry 13). -/
  | wordAccessByteVariant
  /-- A port, or a direction of a port, the variant does not have (R83, R114; log entry 13). -/
  | noSuchPort
  /-- A snapshot no `serialize` could have written down (R303, R308; log entry 16). -/
  | badSnapshot
deriving DecidableEq, Repr

/-- A 68000 control word (R101, R102, R103). -/
def decodeControl16 (pending : Bool) (w : Word) (t : Nat) : Instr :=
  if pending then
    .ctrlA2 (w.extractLsb' 8 8) (w.extractLsb' 4 4) (w.extractLsb' 2 2) (w.extractLsb' 0 2) t
  else if w.extractLsb' 14 2 = 0b10#2 then
    .ctrlRw (w.extractLsb' 13 1) (w.extractLsb' 8 5) (w.extractLsb' 0 8) t
  else .ctrlA1 (w.extractLsb' 14 2) (w.extractLsb' 0 14) t

/-- A control byte of the byte variants (R104, R105, R106). -/
def decodeControl8 (v : Variant) (pending : Bool) (b : Byte) (t : Nat) : Instr :=
  if pending then
    if v.isTms then
      if b.getLsbD 7 then .ctrlT2Reg (b.extractLsb' 3 4) (b.extractLsb' 0 3) t
      else .ctrlT2Addr (b.extractLsb' 6 1) (b.extractLsb' 0 6) t
    else if b.extractLsb' 6 2 = 0b10#2 then .ctrlB2Reg (b.extractLsb' 0 6) t
    else .ctrlB2Addr (b.extractLsb' 6 2) (b.extractLsb' 0 6) t
  else .ctrlB1 b t

/-- A word write. -/
def decodeWrite16 (v : Variant) (pending : Bool) (p : Port) (w : Word) (t : Nat) :
    Except Reject Instr :=
  if v.isByte then .error .wordAccessByteVariant
  else match p with
    | .control => .ok (decodeControl16 pending w t)
    | .data => .ok (.dataW16 w t)
    | .hv => .error .noSuchPort
    | .vCounter => .error .noSuchPort
    | .hCounter => .error .noSuchPort

/-- A byte write. -/
def decodeWrite8 (v : Variant) (pending : Bool) (p : Port) (b : Byte) (t : Nat) :
    Except Reject Instr :=
  if v.isByte then match p with
    | .control => .ok (decodeControl8 v pending b t)
    | .data => .ok (.dataW8 b t)
    | .hv => .error .noSuchPort
    | .vCounter => .error .noSuchPort
    | .hCounter => .error .noSuchPort
  else match p with
    | .control => .error .byteAccess68K
    | .data => .error .byteAccess68K
    | .hv => .error .byteAccess68K
    | .vCounter => .error .noSuchPort
    | .hCounter => .error .noSuchPort

/-- A word read. -/
def decodeRead16 (v : Variant) (p : Port) (t : Nat) : Except Reject Instr :=
  if v.isByte then .error .wordAccessByteVariant
  else match p with
    | .control => .ok (.ctrlR16 t)
    | .data => .ok (.dataR16 t)
    | .hv => .ok (.hvR16 t)
    | .vCounter => .error .noSuchPort
    | .hCounter => .error .noSuchPort

/-- A byte read. The counter ports decode on `VTMS` too, where their meaning refuses (R226). -/
def decodeRead8 (v : Variant) (p : Port) (t : Nat) : Except Reject Instr :=
  if v.isByte then match p with
    | .control => .ok (.ctrlR8 t)
    | .data => .ok (.dataR8 t)
    | .hv => .error .noSuchPort
    | .vCounter => .ok (.vR8 t)
    | .hCounter => .ok (.hR8 t)
  else match p with
    | .control => .error .byteAccess68K
    | .data => .error .byteAccess68K
    | .hv => .error .byteAccess68K
    | .vCounter => .error .noSuchPort
    | .hCounter => .error .noSuchPort

/-- The decoder (R114). -/
def decode (v : Variant) (pending : Bool) : Access → Except Reject Instr
  | .write16 p w t => decodeWrite16 v pending p w t
  | .write8 p b t => decodeWrite8 v pending p b t
  | .read16 p t => decodeRead16 v p t
  | .read8 p t => decodeRead8 v p t
  | .advance t => .ok (.advance t)
  | .latchHv t => .ok (.latchHv t)
  | .raster setMask clearMask t => .ok (.raster setMask clearMask t)
  | .reset t => .ok (.reset t)
  | .serialize t => .ok (.serialize t)
  | .deserialize snap t => if snap.form then .ok (.deserialize snap t) else .error .badSnapshot

/-- The word of a CTRL_RW (R101). -/
def wordRw (ign : BitVec 1) (idx : BitVec 5) (data : Byte) : Word := 0b10#2 ++ ign ++ idx ++ data

/-- The word of a CTRL_A1 (R102). -/
def wordA1 (cd : BitVec 2) (a : BitVec 14) : Word := cd ++ a

/-- The word of a CTRL_A2 (R103). -/
def wordA2 (hi : BitVec 8) (cd : BitVec 4) (mid a : BitVec 2) : Word := hi ++ cd ++ mid ++ a

/-- The byte of a CTRL_B2_ADDR (R105). -/
def byteB2Addr (cd : BitVec 2) (a : BitVec 6) : Byte := cd ++ a

/-- The byte of a CTRL_B2_REG (R105). -/
def byteB2Reg (a : BitVec 6) : Byte := 0b10#2 ++ a

/-- The byte of a CTRL_T2_ADDR (R106). -/
def byteT2Addr (rw : BitVec 1) (a : BitVec 6) : Byte := 0b0#1 ++ rw ++ a

/-- The byte of a CTRL_T2_REG (R106). -/
def byteT2Reg (ign : BitVec 4) (idx : BitVec 3) : Byte := 0b1#1 ++ ign ++ idx

/-- The encoder: the access that carries an operation. -/
def encode : Instr → Access
  | .ctrlRw ign idx data t => .write16 .control (wordRw ign idx data) t
  | .ctrlA1 cd a t => .write16 .control (wordA1 cd a) t
  | .ctrlA2 hi cd mid a t => .write16 .control (wordA2 hi cd mid a) t
  | .ctrlB1 b t => .write8 .control b t
  | .ctrlB2Addr cd a t => .write8 .control (byteB2Addr cd a) t
  | .ctrlB2Reg a t => .write8 .control (byteB2Reg a) t
  | .ctrlT2Addr rw a t => .write8 .control (byteT2Addr rw a) t
  | .ctrlT2Reg ign idx t => .write8 .control (byteT2Reg ign idx) t
  | .dataW16 w t => .write16 .data w t
  | .dataW8 v t => .write8 .data v t
  | .dataR16 t => .read16 .data t
  | .dataR8 t => .read8 .data t
  | .ctrlR16 t => .read16 .control t
  | .ctrlR8 t => .read8 .control t
  | .hvR16 t => .read16 .hv t
  | .vR8 t => .read8 .vCounter t
  | .hR8 t => .read8 .hCounter t
  | .advance t => .advance t
  | .latchHv t => .latchHv t
  | .raster setMask clearMask t => .raster setMask clearMask t
  | .reset t => .reset t
  | .serialize t => .serialize t
  | .deserialize snap t => .deserialize snap t

/-- The variants whose ports carry the operation: the table's "variants", and `VTMS` for the counter
ports, where the access decodes and is refused (R226). -/
def Instr.on : Instr → Variant → Bool
  | .ctrlRw _ _ _ _ => Variant.isWord
  | .ctrlA1 _ _ _ => Variant.isWord
  | .ctrlA2 _ _ _ _ _ => Variant.isWord
  | .ctrlB1 _ _ => Variant.isByte
  | .ctrlB2Addr _ _ _ => Variant.isZ80
  | .ctrlB2Reg _ _ => Variant.isZ80
  | .ctrlT2Addr _ _ _ => Variant.isTms
  | .ctrlT2Reg _ _ _ => Variant.isTms
  | .dataW16 _ _ => Variant.isWord
  | .dataW8 _ _ => Variant.isByte
  | .dataR16 _ => Variant.isWord
  | .dataR8 _ => Variant.isByte
  | .ctrlR16 _ => Variant.isWord
  | .ctrlR8 _ => Variant.isByte
  | .hvR16 _ => Variant.isWord
  | .vR8 _ => Variant.isByte
  | .hR8 _ => Variant.isByte
  | .advance _ => Variant.isAny
  | .latchHv _ => Variant.isAny
  | .raster _ _ _ => Variant.isAny
  | .reset _ => Variant.isAny
  | .serialize _ => Variant.isAny
  | .deserialize _ _ => Variant.isAny

/-- Whether the operation is decoded at a value of `pending` (R100): phase 0 at false, phase 1 at
true, every other operation at both. -/
def Instr.atPhase : Instr → Bool → Bool
  | .ctrlRw _ _ _ _ => fun pending => !pending
  | .ctrlA1 _ _ _ => fun pending => !pending
  | .ctrlA2 _ _ _ _ _ => fun pending => pending
  | .ctrlB1 _ _ => fun pending => !pending
  | .ctrlB2Addr _ _ _ => fun pending => pending
  | .ctrlB2Reg _ _ => fun pending => pending
  | .ctrlT2Addr _ _ _ => fun pending => pending
  | .ctrlT2Reg _ _ _ => fun pending => pending
  | .dataW16 _ _ => fun _ => true
  | .dataW8 _ _ => fun _ => true
  | .dataR16 _ => fun _ => true
  | .dataR8 _ => fun _ => true
  | .ctrlR16 _ => fun _ => true
  | .ctrlR8 _ => fun _ => true
  | .hvR16 _ => fun _ => true
  | .vR8 _ => fun _ => true
  | .hR8 _ => fun _ => true
  | .advance _ => fun _ => true
  | .latchHv _ => fun _ => true
  | .raster _ _ _ => fun _ => true
  | .reset _ => fun _ => true
  | .serialize _ => fun _ => true
  | .deserialize _ _ => fun _ => true

/-- The timestamp an access carries (R301). -/
def Access.time : Access → Nat
  | .write16 _ _ t => t
  | .write8 _ _ t => t
  | .read16 _ t => t
  | .read8 _ t => t
  | .advance t => t
  | .latchHv t => t
  | .raster _ _ t => t
  | .reset t => t
  | .serialize t => t
  | .deserialize _ t => t

/-- Whether an access is the CPU's (R300). -/
def Access.fromCpu : Access → Bool
  | .write16 _ _ _ => true
  | .write8 _ _ _ => true
  | .read16 _ _ => true
  | .read8 _ _ => true
  | .advance _ => false
  | .latchHv _ => false
  | .raster _ _ _ => false
  | .reset _ => false
  | .serialize _ => false
  | .deserialize _ _ => false

/-- Whether an access writes the control port, the one access a frozen CPU may make (R278). -/
def Access.isControlWrite : Access → Bool
  | .write16 p _ _ => decide (p = .control)
  | .write8 p _ _ => decide (p = .control)
  | .read16 _ _ => false
  | .read8 _ _ => false
  | .advance _ => false
  | .latchHv _ => false
  | .raster _ _ _ => false
  | .reset _ => false
  | .serialize _ => false
  | .deserialize _ _ => false

/-- The variant, the phase and the access a bare word of the opcode table stands for (log entry 12): a
16-bit word is a control write of `V68K` in phase 0, an 8-bit word a control write of `VTMS` in phase 1.
The rows with no bit encoding, and the rows that only port and direction tell apart, have no word of
their own. -/
def tableAccess (nbits w t : Nat) : Option (Variant × Bool × Access) :=
  if nbits = 16 then some (.v68k, false, .write16 .control (BitVec.ofNat 16 w) t)
  else if nbits = 8 then some (.vTms, true, .write8 .control (BitVec.ofNat 8 w) t)
  else none

/-- The operation the decoder reads from a bare word of the opcode table (log entry 12). -/
def decodeTableWord (nbits w : Nat) : Option Instr :=
  match tableAccess nbits w 0 with
  | none => none
  | some (v, pending, a) =>
    match decode v pending a with
    | .ok i => some i
    | .error _ => none

end Sys2Proof
end

