-- ==== Sys2Proof/Machine/State.lean ====
section
/-! DEFINITION. The state of the block (R45), the reasons an operation can stop, and the state after
`create` (R341, R44). -/

namespace Sys2Proof.Machine

/-- The reasons a run ends in a fault: contract violations of the host (R321, R323), which the hardware
never reports; all safe, the model stops. -/
inductive Fault where
  /-- ADVANCE with no DMA in flight (R283). Safe. -/
  | advanceWithoutDma
  /-- An operation whose timestamp is below the last one (R301). Any operation. Safe. -/
  | timeReversal
  /-- A CPU port access other than a control write while VBusToVram holds the CPU (R278). Safe. -/
  | accessWhileFrozen
  /-- A second control write while one is already deferred (R281). Safe. -/
  | deferredOverflow
  /-- A CPU port operation asked of a CPU stuck in an invalid read (R196, R325; log entry 7). The step never
  asks it: it passes such a CPU's accesses over. Safe. -/
  | stuckInvalidRead
deriving DecidableEq, Repr

/-- The reasons an operation is refused: it has no meaning in the spec (R117, R324). All safe. -/
inductive Refusal where
  /-- An operation the model gives no meaning yet, by mnemonic. Raised by exec's arms only. Safe. -/
  | notModelled (mnemonic : String)
  /-- A 68000 data-port access while Mode 5 is off: DATA_W16, DATA_R16 (R170, R190). Safe. -/
  | data68KMode4
  /-- A 68000 byte access to a port, raised where an access is not decoded (R84). Safe. -/
  | byteAccess68K
  /-- A VramFill whose code target is not VRAM write: the mark DATA_W16 leaves after the data word's
  write, which every later operation answers (R280, R326; log entry 9). Safe. -/
  | fillNonVram
  /-- A counter port read on the TMS variant: V_R8, H_R8 (R226). Safe. -/
  | noCounterPortTMS
  /-- A word access to a port of a byte variant, raised where an access is not decoded (R84; log
  entry 13). Safe. -/
  | wordAccessByteVariant
  /-- A port or direction the variant does not have, raised where an access is not decoded (R83, R114;
  log entry 13). Safe. -/
  | noSuchPort
  /-- A snapshot no `serialize` could have written down, raised where an access is not decoded (R308;
  log entry 16). Safe. -/
  | badSnapshot
  /-- An operation of another variant's ports, raised by every port operation; the decoder never gives
  one (R114; log entry 14). Safe. -/
  | foreignVariant
deriving DecidableEq, Repr

/-- What an operation gives back to its agent (R11, R303): the value a read returns, the caller's clock
`t'`, and the snapshot of SERIALIZE. -/
structure Output where
  value : Option Word
  clock : Nat
  snapshot : Option Snapshot
deriving DecidableEq, Repr

/-- The state of the block (R45), with its configuration (R20) and the model's own `cpuStuck`, `inbox`,
`draws` and `out` (log entries 1, 4, 6, 10). -/
structure State where
  /-- The configuration, never written (R20). -/
  cfg : Config
  /-- The 32 mode registers (R22). -/
  reg : Vector Byte 32
  /-- The address register (R23). -/
  addr : BitVec 16
  /-- The code register CD5..CD0 (R24, R32). -/
  code : BitVec 6
  /-- The pending flag (R25). -/
  pending : Bool
  /-- The control byte latch of the byte variants (R26). -/
  ctrlLatch : Byte
  /-- The read buffer (R27). -/
  readBuf : Word
  /-- The Game Gear CRAM byte latch (R28). -/
  ggLatch : Byte
  /-- The stored status word, bits 1 to 7 (R33, R34). -/
  status : Word
  /-- How many writes the FIFO holds, 0 to 4 (R35). -/
  fifoCount : Nat
  /-- The FIFO's drain clock (R35, R242). -/
  fifoLastWrite : Nat
  /-- The cached FIFO latency (R35, R134). -/
  fifoLatency : Nat
  /-- The kind of the DMA in flight, if any (R36). -/
  dmaType : Option DmaKind
  /-- The transfer units the DMA has left (R36, R262). -/
  dmaRemaining : Nat
  /-- The DMA's source cursor (R36). -/
  dmaSource : BitVec 24
  /-- A VramFill waits for its fill byte (R37). -/
  fillArmed : Bool
  /-- The fill byte (R37). -/
  fillByte : Byte
  /-- The end of the current concurrent DMA step (R37, R276). -/
  dmaEndCycles : Nat
  /-- The deferred control write (R37, R281). -/
  deferredCtrl : Option Word
  /-- The HV counter's frozen snapshot (R38). -/
  hvLatch : Option Word
  /-- The timestamp of the last operation (R45, R301). -/
  lastT : Nat
  /-- VRAM, 65536 bytes (R39, R71). -/
  vram : Memory
  /-- CRAM, 128 bytes (R39, R73). -/
  cram : Memory
  /-- VSRAM, 128 bytes (R39, R74). -/
  vsram : Memory
  /-- The SAT shadow (R39, R75). -/
  sat : Memory
  /-- The dirty tiles, rising (R40). -/
  dirty : List Nat
  /-- The cached rendering mode (R41, R42). -/
  renderMode : RenderMode
  /-- The cached display height (R41, R42). -/
  displayLines : DisplayLines
  /-- The cached backdrop colour (R41, R43). -/
  backdropColor : Colour
  /-- The model mark of a contract violation (R45, R322). -/
  faulted : Option Fault
  /-- The model mark of a refusal (R45, R10). -/
  refused : Option Refusal
  /-- The CPU is stuck in an invalid read (R325; the model's own). -/
  cpuStuck : Bool
  /-- The events the agents have issued, in their one total order (R89; the model's own). -/
  inbox : List Event
  /-- How many free values have been drawn (R10; the model's own). -/
  draws : Nat
  /-- What the last operation gave back (R11; the model's own). -/
  out : Output
deriving DecidableEq, Repr

/-- `create(config)`: every field at the reset value of R44, R35, R36, R37, R38, R45; no event issued. -/
def State.create (c : Config) : State where
  cfg := c
  reg := Vector.replicate 32 0#8
  addr := 0#16
  code := 0#6
  pending := false
  ctrlLatch := 0#8
  readBuf := 0#16
  ggLatch := 0#8
  status := 0#16
  fifoCount := 0
  fifoLastWrite := 0
  fifoLatency := c.fifoLatency.pick false false
  dmaType := none
  dmaRemaining := 0
  dmaSource := 0#24
  fillArmed := false
  fillByte := 0#8
  dmaEndCycles := 0
  deferredCtrl := none
  hvLatch := none
  lastT := 0
  vram := []
  cram := []
  vsram := []
  sat := []
  dirty := []
  renderMode := .tms
  displayLines := .lines192
  backdropColor := 0#9
  faulted := none
  refused := none
  cpuStuck := false
  inbox := []
  draws := 0
  out := ⟨none, 0, none⟩

/-- The block right after reset: `create` of the instance `Config.initial` (R341; log entry 2). -/
def State.reset : State := State.create Config.initial

end Sys2Proof.Machine
end

