-- ==== Sys2Proof/Machine/Ops.lean ====
section
/-! DEFINITION. The named operations over registers, parameters, memory banks and outcomes that every
meaning is written with. -/

namespace Sys2Proof.Machine

/-- The outcome of an operation. -/
abbrev Res := Host.Outcome State Fault Refusal

/-- Going on from a next state; a fault or a refusal ends the operation (R326). -/
def andThen (r : Res) (k : State → Res) : Res :=
  match r with
  | .next s => k s
  | .fault f => .fault f
  | .refused q => .refused q

/-- The agents that issue operations, as far as the stuck outcome tells them apart (R300, R325). -/
inductive Agent where
  | cpu
  | host
deriving DecidableEq, Repr

/-! ### Faults and refusals (R320 to R326): the block has no exception entry (R329) -/

/-- What every operation does first: no agent steps after a fault or a refusal mark (R322; log entries
8, 9), the stuck CPU does not step (R325; log entry 7), time does not go back, and the timestamp is
kept (R301). -/
def enter (agent : Agent) (t : Nat) (s : State) : Res :=
  match s.faulted with
  | some f => .fault f
  | none =>
    match s.refused with
    | some q => .refused q
    | none =>
      if agent = .cpu ∧ s.cpuStuck = true then .fault .stuckInvalidRead
      else if t < s.lastT then .fault .timeReversal
      else .next { s with lastT := t }

/-- The VBusToVram freeze of a CPU port access other than a control write (R278). -/
def unfrozen (s : State) : Res :=
  if s.dmaType = some .vbusToVram then .fault .accessWhileFrozen else .next s

/-- An operation of a port the instance's variant has not is refused (R114; log entry 14). -/
def onlyOn (ok : Variant → Bool) (s : State) : Res :=
  if ok s.cfg.variant then .next s else .refused .foreignVariant

/-- Refusing an operation (R10, R324). -/
def refuse (q : Refusal) : Res := .refused q

/-- What every CPU port access but a control write does first, in the order of R326. -/
def portAccess (ok : Variant → Bool) (t : Nat) (s : State) : Res :=
  andThen (andThen (enter .cpu t s) unfrozen) (onlyOn ok)

/-- The end of an operation: the value it returns and the caller's clock `t'` (R11). -/
def finish (value : Option Word) (clock : Nat) (s : State) : Res :=
  .next { s with out := ⟨value, clock, none⟩ }

/-- The agent that issues an access (R300). -/
def agentOf (a : Access) : Agent := if a.fromCpu then .cpu else .host

/-- The state an access does its own work in: its timestamp kept (R301), or the state as it was where it may
not step. -/
def entered (a : Access) (s : State) : State :=
  match enter (agentOf a) a.time s with
  | .next s' => s'
  | .fault _ => s
  | .refused _ => s

/-- The state a run is left in after an access's outcome (R10, R322): a raise in its own work sets the mark and
makes no other change, to a state in which the timestamp is kept already (R301; log entry 25). -/
def leave (a : Access) (s : State) : Res → State
  | .next s' => s'
  | .fault f => { entered a s with faulted := some f }
  | .refused q => { entered a s with refused := some q }

/-! ### Registers and their named fields (R22, R29) -/

/-- Reading a mode register. -/
def State.rd (s : State) (i : BitVec 5) : Byte := s.reg[i.toNat]'i.isLt

/-- Storing a mode register; only `writeRegister` and DMA completion do (R140, R273). -/
def State.setReg (s : State) (i : BitVec 5) (d : Byte) : State :=
  { s with reg := s.reg.set i.toNat d i.isLt }

/-- `m5`: Mode 5 enabled; constant 0 but on `V68K`. -/
def State.m5 (s : State) : Bool := s.cfg.variant.isWord && (s.rd 1).getLsbD 2

/-- `m4sel`. -/
def State.m4sel (s : State) : Bool := (s.rd 0).getLsbD 2

/-- `m2` (while `m5 = 0`). -/
def State.m2 (s : State) : Bool := !s.m5 && (s.rd 0).getLsbD 1

/-- `m1` (while `m5 = 0`). -/
def State.m1 (s : State) : Bool := !s.m5 && (s.rd 1).getLsbD 4

/-- `m3` (while `m5 = 0`). -/
def State.m3 (s : State) : Bool := !s.m5 && (s.rd 1).getLsbD 3

/-- `hvLatchEn` (while `m5 = 1`). -/
def State.hvLatchEn (s : State) : Bool := s.m5 && (s.rd 0).getLsbD 1

/-- `v30` (while `m5 = 1`). -/
def State.v30 (s : State) : Bool := s.m5 && (s.rd 1).getLsbD 3

/-- `dmaEn` (while `m5 = 1`). -/
def State.dmaEn (s : State) : Bool := s.m5 && (s.rd 1).getLsbD 4

/-- `dispEn`. -/
def State.dispEn (s : State) : Bool := (s.rd 1).getLsbD 6

/-- `bigVram` (`VTMS` only). -/
def State.bigVram (s : State) : Bool := s.cfg.variant.isTms && (s.rd 1).getLsbD 7

/-- `satReg = reg[5]`: the SAT base register. -/
def State.satReg (s : State) : Byte := s.rd 5

/-- `backdropIdx`. -/
def State.backdropIdx (s : State) : BitVec 6 :=
  if s.m5 then (s.rd 7).extractLsb' 0 6 else 0x10#6 ||| ((s.rd 7).extractLsb' 0 4).setWidth 6

/-- `h40`; 0 while `m5 = 0`. -/
def State.h40 (s : State) : Bool := s.m5 && (s.rd 12).getLsbD 0

/-- `lsm`; 0 while `m5 = 0`. -/
def State.lsm (s : State) : BitVec 2 := if s.m5 then (s.rd 12).extractLsb' 1 2 else 0#2

/-- `interlace = lsm[0]`. -/
def State.interlace (s : State) : Bool := s.lsm.getLsbD 0

/-- `im2 = (lsm = 0b11)`. -/
def State.im2 (s : State) : Bool := decide (s.lsm = 0b11#2)

/-- `inc`; constant 1 while `m5 = 0`. -/
def State.inc (s : State) : Byte := if s.m5 then s.rd 15 else 1#8

/-- `dmaLen = reg[20] : reg[19]`. -/
def State.dmaLen (s : State) : Word := s.rd 20 ++ s.rd 19

/-- `dmaSrcLo = reg[22] : reg[21]`. -/
def State.dmaSrcLo (s : State) : Word := s.rd 22 ++ s.rd 21

/-- `dmaSrcHi = reg[23][6:0]`. -/
def State.dmaSrcHi (s : State) : BitVec 7 := (s.rd 23).extractLsb' 0 7

/-- `dmaKind = reg[23][7:6]` read as R263 says. -/
def State.dmaKind (s : State) : DmaKind :=
  if (s.rd 23).getLsbD 7 then
    if (s.rd 23).getLsbD 6 then .vramCopy else .vramFill
  else .vbusToVram

/-- The register file as its named fields (R29). -/
def State.regFields (s : State) : RegFields where
  m5 := s.m5
  m4sel := s.m4sel
  m2 := s.m2
  m1 := s.m1
  m3 := s.m3
  hvLatchEn := s.hvLatchEn
  v30 := s.v30
  dmaEn := s.dmaEn
  dispEn := s.dispEn
  bigVram := s.bigVram
  satReg := s.satReg
  backdropIdx := s.backdropIdx
  h40 := s.h40
  lsm := s.lsm
  inc := s.inc
  dmaLen := s.dmaLen
  dmaSrcLo := s.dmaSrcLo
  dmaSrcHi := s.dmaSrcHi
  dmaKind := s.dmaKind

/-- `renderMode` as the registers give it (R42). -/
def State.renderModeNow (s : State) : RenderMode :=
  if s.m5 then
    if s.im2 then .mode5Interlaced else .mode5Progressive
  else if s.cfg.variant.isTms = false ∧ s.m4sel = true then .mode4
  else .tms

/-- The code's target bits `code[3:0]` (R32). -/
def State.target (s : State) : BitVec 4 := s.code.extractLsb' 0 4

/-- The code is that of a VRAM write, `code[3:0] = 0x1` (R108, R134). -/
def State.vramTarget (s : State) : Bool := decide (s.target = 0x1#4)

/-! ### Parameters (R8): a known value, else the free one (log entry 3) -/

/-- The value a list of known points gives a key. -/
def known {α β : Type} [DecidableEq α] : List (α × β) → α → Option β
  | [], _ => none
  | (k, v) :: l, a => if a = k then some v else known l a

/-- `FIFO_LATENCY(h40, code[3:0] = 0x1)` (R134). -/
def State.latencyNow (s : State) : Nat := s.cfg.fifoLatency.pick s.h40 s.vramTarget

/-- `FrameCycles(t)` (R222). -/
def frameCycles (c : Config) (t : Nat) : Nat := t % (c.cyclesPerLine * c.linesPerFrame)

/-- `VBLANK_REMAINING(t)` (R268). -/
def vblankRemaining (c : Config) (t : Nat) : Nat :=
  if c.vblankByFrame then c.cyclesPerLine * c.linesPerFrame - frameCycles c t
  else Config.freeVblankRemaining t

/-- `VC_MAX(renderMode, displayLines, PAL)` (R223). -/
def vcMax (c : Config) (m : RenderMode) (l : DisplayLines) : Nat :=
  (known c.vcMax (m, l)).getD (Config.freeVcMax m l c.pal)

/-- `HC_TABLE(VARIANT, h40)` at a position in the line (R224). -/
def hcTable (c : Config) (h40 : Bool) (x : Nat) : Byte :=
  ((if h40 then c.hc40 else c.hc32)[x]?).getD (Config.freeHc c.variant h40 x)

/-- `TMS_4K_MAP` (R157). -/
def tms4kMap (c : Config) (a : BitVec 14) : BitVec 14 :=
  (known c.tms4kMap a).getD (Config.freeTms4k a)

/-- The Mode 5 candidate of `SAT_RANGE` (R75). -/
def State.satMode5 (s : State) : Word × Nat :=
  if s.h40 then ((s.satReg.extractLsb' 0 7 ++ 0#9) &&& 0xFC00#16, 1024)
  else ((s.satReg.extractLsb' 0 7 ++ 0#9) &&& 0xFE00#16, 512)

/-- The candidate values of `SAT_RANGE`, by rendering mode (R75). -/
def State.satCandidate (s : State) : Word × Nat :=
  match s.renderModeNow with
  | .mode5Interlaced => s.satMode5
  | .mode5Progressive => s.satMode5
  | .mode4 => ((s.satReg.extractLsb' 1 6 ++ 0#8).setWidth 16, 256)
  | .tms => ((s.satReg.extractLsb' 0 7 ++ 0#7).setWidth 16, 128)

/-- `SAT_RANGE(regs)`: base and size, a function of the named register fields (R8, R75). -/
def State.satRange (s : State) : Word × Nat :=
  match s.cfg.satRange with
  | .table l => (known l s.regFields).getD (Config.freeSatRange s.cfg.variant s.regFields)
  | .constant base size => (base, size)
  | .candidate => s.satCandidate

/-- One more free value drawn (log entry 4). -/
def State.drawn (s : State) : State := { s with draws := s.draws + 1 }

/-- The next `draw(16)` (R10). -/
def State.nextDraw (s : State) : Word := Config.freeDraw s.draws

/-- `BusRead16(a)` as the next read of it answers (R82; log entry 5). -/
def State.busRead (s : State) (a : BitVec 24) : Word :=
  (known s.cfg.busWords a).getD (Config.freeBusWord s.draws a)

/-! ### Memory banks (R70 to R80) -/

/-- `LogIdx`: the array index of a logical byte, and back (R72). -/
def State.logIdx (s : State) (b : Word) : Word := if s.cfg.variant.isWord then b ^^^ 1#16 else b

/-- A VRAM array element is in the SAT's range: `satBase ≤ b < satBase + SAT_SIZE` of its logical address
`b` (R75). -/
def State.inSat (s : State) (i : Word) : Bool :=
  decide (s.satRange.1.toNat ≤ (s.logIdx i).toNat) &&
  decide ((s.logIdx i).toNat < s.satRange.1.toNat + s.satRange.2)

/-- The index of a VRAM array element in the SAT shadow, `b - satBase` (R75). -/
def State.satIdx (s : State) (i : Word) : Nat := (s.logIdx i).toNat - s.satRange.1.toNat

/-- The SAT mirror of an array element (R75). -/
def State.satMirror (s : State) (i : Word) (v : Byte) : State :=
  if s.inSat i then { s with sat := s.sat.write (s.satIdx i) v }
  else s

/-- Storing a VRAM byte and marking its tile, unless the byte is identical (R76). -/
def State.vramStore (s : State) (i : Word) (v : Byte) : State :=
  if s.vram.read i.toNat = v then s
  else { s with vram := s.vram.write i.toNat v, dirty := markTile (i.toNat / 32) s.dirty }

/-- `VramPut` (R76): the only way VRAM is written. -/
def State.vramPut (s : State) (i : Word) (v : Byte) : State := (s.vramStore i v).satMirror i v

/-- The even address of a VRAM word, `a & 0xFFFE` (R77). -/
def evenAddr (a : Word) : Word := a &&& 0xFFFE#16

/-- The high byte of a word. -/
def hiByte (w : Word) : Byte := w.extractLsb' 8 8

/-- The low byte of a word. -/
def loByte (w : Word) : Byte := w.extractLsb' 0 8

/-- A word with its bytes swapped (R77). -/
def swapBytes (w : Word) : Word := loByte w ++ hiByte w

/-- The word a VRAM word write stores at an address: swapped at an odd one (R77, R85). -/
def vramWordAt (a w : Word) : Word := if a.getLsbD 0 then swapBytes w else w

/-- `VramWordWrite` (R77). -/
def State.vramWordWrite (s : State) (a w : Word) : State :=
  (s.vramPut (evenAddr a) (loByte (vramWordAt a w))).vramPut (evenAddr a + 1#16)
    (hiByte (vramWordAt a w))

/-- `VramWordRead` (R78). -/
def State.vramWordRead (s : State) (a : Word) : Word :=
  s.vram.read (evenAddr a + 1#16).toNat ++ s.vram.read (evenAddr a).toNat

/-- `VramByteRead`: the logical byte (R78). -/
def State.vramByteRead (s : State) (b : Word) : Byte := s.vram.read (s.logIdx b).toNat

/-- `CramEntry` of a bank (R43, R79). -/
def cramEntry (m : Memory) (i : BitVec 6) : Colour :=
  (m.read (2 * i.toNat + 1)).extractLsb' 0 1 ++ m.read (2 * i.toNat)

/-- Republishing the backdrop (R43). -/
def State.republish (s : State) : State :=
  { s with backdropColor := cramEntry s.cram s.backdropIdx }

/-- The bank after a CRAM entry is stored (R79). -/
def cramStore (m : Memory) (i : BitVec 6) (v : Colour) : Memory :=
  (m.write (2 * i.toNat) (v.extractLsb' 0 8)).write (2 * i.toNat + 1)
    ((v.extractLsb' 8 1).setWidth 8)

/-- `CramWrite` (R79, R182). -/
def State.cramWrite (s : State) (i : BitVec 6) (v : Colour) : State :=
  if i = s.backdropIdx then State.republish { s with cram := cramStore s.cram i v }
  else { s with cram := cramStore s.cram i v }

/-- The index of the low byte of a VSRAM word, `a & 0x7E` (R80). -/
def vsramIdx (a : Word) : Nat := (a &&& 0x7E#16).toNat

/-- `VsramWrite` (R80). -/
def State.vsramWrite (s : State) (a w : Word) : State :=
  { s with vsram := (s.vsram.write (vsramIdx a) (loByte w)).write (vsramIdx a + 1) (hiByte w) }

/-- `VsramRead` (R80). -/
def State.vsramRead (s : State) (a : Word) : Word :=
  s.vsram.read (vsramIdx a + 1) ++ s.vsram.read (vsramIdx a)

/-! ### Address advance (R86) -/

/-- `addr <- (addr + inc) mod 2^16` (R172). -/
def State.advance16 (s : State) : State := { s with addr := s.addr + s.inc.setWidth 16 }

/-- `addr <- (addr + 1) mod 2^14` (R152, R180, R198). -/
def State.advance14 (s : State) : State :=
  { s with addr := ((s.addr.setWidth 14) + 1#14).setWidth 16 }

/-! ### What the step does around an operation (log entries 1, 7, 8, 13) -/

/-- No event has been issued: the block does nothing (R354), unless a mark ended the run (R322). -/
def idle (s : State) : Res :=
  match s.faulted with
  | some f => .fault f
  | none =>
    match s.refused with
    | some q => .refused q
    | none => .next s

/-- The accesses of a stuck CPU are passed over: it has no further step, the other agents may step (R325;
log entry 7). -/
def heldBack (a : Access) (s : State) : Bool := a.fromCpu && s.cpuStuck

/-- A turn of the renderer: it reads, and may clear the dirty set (R306). -/
def rendererTurn (clearDirty : Bool) (s : State) : Res :=
  andThen (idle s) fun s => .next (if clearDirty then { s with dirty := [] } else s)

/-- The refusal of an access that is no operation (R117, R324). -/
def refusalOf : Reject → Refusal
  | .byteAccess68K => .byteAccess68K
  | .wordAccessByteVariant => .wordAccessByteVariant
  | .noSuchPort => .noSuchPort
  | .badSnapshot => .badSnapshot

/-- An access that is no operation is refused, after the outcomes that come first (R326): while VBusToVram
holds the CPU any access of it that is no control write of the variant's width faults (R278; log entry
13). -/
def rejectAccess (a : Access) (r : Reject) (s : State) : Res :=
  andThen (enter (agentOf a) a.time s) fun s =>
    andThen (if a.fromCpu then unfrozen s else .next s) fun _ =>
      refuse (refusalOf r)

end Sys2Proof.Machine
end

