-- ==== Sys2Proof/Machine/Flags.lean ====
section
/-! DEFINITION. The status word (R33, R34, R47) and the FIFO occupancy that sets two of its bits
(43_fifo.md). -/

namespace Sys2Proof.Machine

/-- VBlank, status bit 3 (R33). -/
def State.vblank (s : State) : Bool := s.status.getLsbD 3

/-- DMA busy, status bit 1 (R33). -/
def State.dmaBusy (s : State) : Bool := s.status.getLsbD 1

/-- Setting DMA busy (R276). -/
def State.setDmaBusy (s : State) : State := { s with status := s.status ||| 0x0002#16 }

/-- FIFO full, status bit 8 (R33). -/
def State.fifoFull (s : State) : Bool := s.m5 && decide (s.fifoCount = 4)

/-- FIFO empty, status bit 9 (R33). -/
def State.fifoEmpty (s : State) : Bool := !s.m5 || decide (s.fifoCount = 0)

/-- A bit of a word, or 0. -/
def flag (b : Bool) (w : Word) : Word := if b then w else 0#16

/-- `StatusValue(s)` (R47). -/
def State.statusValue (s : State) : Word :=
  (s.status &&& 0x00FE#16) ||| flag s.cfg.pal 0x0001#16 ||| flag s.fifoFull 0x0100#16
    ||| flag s.fifoEmpty 0x0200#16

/-- What a status read does to the state: `pending` and bits 5, 6, 7 cleared (R210, R211). -/
def State.statusClear (s : State) : State :=
  { s with pending := false, status := s.status &&& 0xFF1F#16 }

/-- `DmaBusyUpdate(t)` (R279). -/
def State.dmaBusyUpdate (t : Nat) (s : State) : State :=
  if s.dmaBusy = true ∧ s.dmaType = none ∧ s.dmaEndCycles ≤ t then
    { s with status := s.status &&& 0xFFFD#16 }
  else s

/-- The status word after a raster input (R307): bits 2 to 7 set and cleared by the masks. -/
def rasterStatus (setMask clearMask : Byte) (w : Word) : Word :=
  (w &&& ~~~(clearMask.setWidth 16 &&& 0x00FC#16)) ||| (setMask.setWidth 16 &&& 0x00FC#16)

/-- `Active()`: active non-blanked display (R244). -/
def State.active (s : State) : Bool := !s.vblank && s.dispEn

/-- How many entries retire at a time (R242). -/
def State.retired (t : Nat) (s : State) : Nat :=
  min s.fifoCount ((t - s.fifoLastWrite) / s.fifoLatency)

/-- `FifoUpdate(t)` (R242). -/
def State.fifoUpdate (t : Nat) (s : State) : State :=
  if s.m5 = false ∨ s.fifoCount = 0 ∨ t ≤ s.fifoLastWrite then s
  else
    { s with
      fifoCount := s.fifoCount - s.retired t
      fifoLastWrite := s.fifoLastWrite + s.retired t * s.fifoLatency }

/-- The charge of a write in active display, after `FifoUpdate` (R243). -/
def State.fifoCharge (t : Nat) (s : State) : State × Nat :=
  if s.fifoCount < 4 then
    ({ s with
      fifoCount := s.fifoCount + 1
      fifoLastWrite := if s.fifoCount = 0 then t else s.fifoLastWrite }, t)
  else ({ s with fifoLastWrite := s.fifoLastWrite + s.fifoLatency }, t + s.fifoLatency)

/-- `FifoNoteWrite(t)`: the state and the caller's clock (R243). -/
def State.fifoNoteWrite (t : Nat) (s : State) : State × Nat :=
  if s.m5 = false ∨ s.active = false then (s, t) else (s.fifoUpdate t).fifoCharge t

end Sys2Proof.Machine
end

