-- ==== Sys2Proof/Machine/Operands.lean ====
section
/-! DEFINITION. Operand forms: colour packing, the targets of data accesses, the bus-write path and the
prefetch (41_data_port.md, R108, R152, R197). -/

namespace Sys2Proof.Machine

/-- `Pack12`: bus-width colour `0000 BBB0 GGG0 RRR0` to an entry (R173). -/
def pack12 (w : Word) : Colour := w.extractLsb' 9 3 ++ w.extractLsb' 5 3 ++ w.extractLsb' 1 3

/-- `PackSms`: 2-bit blue, green, red each widened with a 0 low bit (R181). -/
def packSms (v : Byte) : Colour :=
  v.extractLsb' 4 2 ++ 0#1 ++ v.extractLsb' 2 2 ++ 0#1 ++ v.extractLsb' 0 2 ++ 0#1

/-- An entry unpacked to bus layout, the unused bits 0 (R194). -/
def unpack12 (e : Colour) : Word :=
  0#4 ++ e.extractLsb' 6 3 ++ 0#1 ++ e.extractLsb' 3 3 ++ 0#1 ++ e.extractLsb' 0 3 ++ 0#1

/-- The CRAM entry the address register selects on `V68K` and, of its pair, on `VZ80_GG`:
`(addr >> 1)` (R81). -/
def State.cramIdx16 (s : State) : BitVec 6 := s.addr.extractLsb' 1 6

/-- The CRAM entry `addr & 0x1F` of `VZ80_SMS` and `VZ80_MD4` (R81). -/
def State.cramIdxSms (s : State) : BitVec 6 := (s.addr.extractLsb' 0 5).setWidth 6

/-- The CRAM entry `(addr >> 1) & 0x1F` of `VZ80_GG` (R81). -/
def State.cramIdxGg (s : State) : BitVec 6 := (s.addr.extractLsb' 1 5).setWidth 6

/-- The target write of the bus-write path, by `code[3:0]` (R171, R173, R174, R175). -/
def State.targetWrite (s : State) (w : Word) : State :=
  if s.target = 0x1#4 then s.vramWordWrite s.addr w
  else if s.target = 0x3#4 then s.cramWrite s.cramIdx16 (pack12 w)
  else if s.target = 0x5#4 then s.vsramWrite s.addr w
  else s

/-- `BusWrite` (R176): the target write, then the address advance (R172). -/
def State.busWrite (s : State) (w : Word) : State := (s.targetWrite w).advance16

/-- `IsReadCode` (R197). -/
def isReadCode (c : BitVec 4) : Bool :=
  decide (c = 0x0#4) || decide (c = 0x4#4) || decide (c = 0x8#4) || decide (c = 0xC#4)

/-- What a VSRAM read gives: the low 11 bits are the stored word, the high bits the next draw's (R193). A
prefetch gives it while `m5 = 0` too, as R133, R135 and R197 say and against R74's last sentence, which holds
of the data port (log entry 23; DESIGN CHOICE, unsafe). -/
def State.vsramValue (s : State) : Word :=
  (s.vsramRead s.addr &&& 0x07FF#16) ||| (s.nextDraw &&& 0xF800#16)

/-- The value of `ReadTarget` at a read code, with the bits of the next draw (R192 to R195); at any
other code the draw itself, outcome (a) of R196. -/
def State.targetValue (s : State) : Word :=
  if s.target = 0x0#4 then s.vramWordRead s.addr
  else if s.target = 0x4#4 then s.vsramValue
  else if s.target = 0x8#4 then
    unpack12 (cramEntry s.cram s.cramIdx16) ||| (s.nextDraw &&& 0xF111#16)
  else if s.target = 0xC#4 then
    (s.nextDraw &&& 0xFF00#16) ||| (s.vramByteRead s.addr).setWidth 16
  else s.nextDraw

/-- Whether `ReadTarget` uses a draw (R193 to R196). -/
def State.targetDraws (s : State) : Bool := !decide (s.target = 0x0#4)

/-- Whether the read leaves the CPU stuck, outcome (b) of R196: a free choice, at a code that is no read
code (log entry 6). -/
def State.targetSticks (s : State) : Bool := !isReadCode s.target && Config.freeStuck s.draws

/-- The buffer refilled from the target and the address advanced: the end of a data read and the
prefetch (R190, R197). -/
def State.refill16 (s : State) : State :=
  State.advance16 { (if s.targetDraws then s.drawn else s) with readBuf := s.targetValue }

/-- The buffer refilled from VRAM and the address advanced on the byte variants (R152, R198). -/
def State.refill8 (s : State) : State :=
  State.advance14 { s with readBuf := (s.vram.read s.addr.toNat).setWidth 16 }

/-- The store of a byte data write: VRAM, or CRAM by the variant's packing (R180, R183, R184). -/
def State.byteStore (s : State) (v : Byte) : State :=
  match s.cfg.variant with
  | .vTms => s.vramPut s.addr v
  | .vz80Gg =>
    if s.code.extractLsb' 0 2 = 0b11#2 then
      if s.addr.getLsbD 0 then s.cramWrite s.cramIdxGg (pack12 (v ++ s.ggLatch))
      else { s with ggLatch := v }
    else s.vramPut s.addr v
  | .vz80Sms =>
    if s.code.extractLsb' 0 2 = 0b11#2 then s.cramWrite s.cramIdxSms (packSms v)
    else s.vramPut s.addr v
  | .vz80Md4 =>
    if s.code.extractLsb' 0 2 = 0b11#2 then s.cramWrite s.cramIdxSms (packSms v)
    else s.vramPut s.addr v
  | .v68k => s

end Sys2Proof.Machine
end

