-- ==== Sys2Proof/Machine/Registers.lean ====
section
/-! DEFINITION. The register file's one writer and the caches derived from it (R140 to R143, R41 to R43). -/

namespace Sys2Proof.Machine

/-- `displayLines` as the registers give it (R42). -/
def State.displayLinesNow (s : State) : DisplayLines :=
  if s.m5 then
    if s.v30 then .lines240 else .lines224
  else if s.renderModeNow = .mode4 then
    if s.m2 = true ∧ s.m1 = true ∧ s.m3 = false then .lines224
    else if s.m2 = true ∧ s.m3 = true ∧ s.m1 = false then .lines240
    else .lines192
  else .lines192

/-- `backdropColor` as CRAM and the registers give it (R43). -/
def State.backdropNow (s : State) : Colour := cramEntry s.cram s.backdropIdx

/-- `RecomputeDerived()` (R141). -/
def State.recomputeDerived (s : State) : State :=
  { s with
    renderMode := s.renderModeNow
    displayLines := s.displayLinesNow
    backdropColor := s.backdropNow }

/-- `writeRegister` ignores registers 11 to 23 while `m5 = 0` (R31, R140). -/
def State.regIgnored (s : State) (i : BitVec 5) : Bool :=
  decide (11#5 ≤ i) && decide (i ≤ 23#5) && !s.m5

/-- Clearing `hvLatchEn` in Mode 5 releases the HV latch (R142). -/
def State.releaseHv (i : BitVec 5) (d : Byte) (s : State) : State :=
  if i = 0#5 ∧ s.m5 = true ∧ d.getLsbD 1 = false then { s with hvLatch := none } else s

/-- What a change of `m5` does to the FIFO (R143). -/
def State.fifoOnMode (oldM5 : Bool) (t : Nat) (s : State) : State :=
  if oldM5 = true ∧ s.m5 = false then { s with fifoCount := 0 }
  else if oldM5 = false ∧ s.m5 = true then { s with fifoLastWrite := t }
  else s

/-- `writeRegister(i, d, t)` (R140). -/
def State.writeRegister (i : BitVec 5) (d : Byte) (t : Nat) (s : State) : State :=
  if s.regIgnored i then s
  else State.fifoOnMode s.m5 t (State.releaseHv i d (s.setReg i d).recomputeDerived)

end Sys2Proof.Machine
end

