-- ==== Sys2Proof/Machine/Dma.lean ====
section
/-! DEFINITION. The DMA engine and the effects of control writes, which start it and which it replays
(44_dma.md, R130 to R134, R150 to R157). -/

namespace Sys2Proof.Machine

/-! ### Transfer units (R270 to R272) -/

/-- The VBusToVram source two bytes on, inside its 128 KB window (R270). -/
def nextBusSource (a : BitVec 24) : BitVec 24 :=
  (a &&& 0xFE0000#24) ||| ((a + 2#24) &&& 0x01FFFF#24)

/-- A VBusToVram unit: one word through the bus-write path (R270). -/
def State.unitBus (s : State) : State :=
  { (s.drawn.busWrite (s.busRead s.dmaSource)) with dmaSource := nextBusSource s.dmaSource }

/-- A VramFill unit (R271). -/
def State.unitFill (s : State) : State := (s.vramPut (s.addr ^^^ 1#16) s.fillByte).advance16

/-- The VramCopy source cursor, `dmaSource[15:0]` (R36, R272). -/
def State.copySource (s : State) : Word := s.dmaSource.extractLsb' 0 16

/-- A VramCopy unit (R272). -/
def State.unitCopy (s : State) : State :=
  State.advance16
    { (s.vramPut (s.addr ^^^ 1#16) (s.vram.read (s.copySource ^^^ 1#16).toNat)) with
      dmaSource := (s.copySource + 1#16).setWidth 24 }

/-- `DmaUnit()` of the kind in flight (R265). -/
def State.dmaUnit (s : State) : State :=
  match s.dmaType with
  | some .vbusToVram => s.unitBus
  | some .vramFill => s.unitFill
  | some .vramCopy => s.unitCopy
  | none => s

/-- A number of transfer units one after another (R265). -/
def State.dmaUnits : Nat → State → State
  | 0, s => s
  | n + 1, s => State.dmaUnits n s.dmaUnit

/-! ### The per-step budget (R265 to R268) -/

/-- Blanked or forced blank: VBlank set or the display disabled (R265). -/
def State.blank (s : State) : Bool := s.vblank || !s.dispEn

/-- The rate of a step, halved for VBusToVram (R265). -/
def State.dmaRateNow (s : State) : Nat :=
  if s.dmaType = some .vbusToVram then s.cfg.dmaRate.pick s.blank s.h40 / 2
  else s.cfg.dmaRate.pick s.blank s.h40

/-- The cycles to the end of the line, or of vertical blanking (R265, R268). -/
def State.dmaWindow (t : Nat) (s : State) : Nat :=
  if s.vblank then vblankRemaining s.cfg t
  else s.cfg.cyclesPerLine - t % s.cfg.cyclesPerLine

/-- The units the window holds (R265). -/
def State.dmaRoom (t : Nat) (s : State) : Nat :=
  s.dmaWindow t * s.dmaRateNow / s.cfg.cyclesPerLine

/-- The units of a step, clamped to what remains (R265, R267). -/
def State.stepUnits (t : Nat) (s : State) : Nat :=
  if s.dmaRemaining < s.dmaRoom t then s.dmaRemaining else s.dmaRoom t

/-- The cycles of a step: those of the clamped transfer where the clamp applies (R265, R267). -/
def State.stepCycles (t : Nat) (s : State) : Nat :=
  if s.dmaRemaining < s.dmaRoom t then s.dmaRemaining * s.cfg.cyclesPerLine / s.dmaRateNow
  else s.dmaWindow t

/-- The clock a step returns: VBusToVram freezes the caller for the step (R276, R277). -/
def State.stepClock (t : Nat) (s : State) : Nat :=
  if s.dmaType = some .vbusToVram then t + s.stepCycles t else t

/-- A concurrent step is busy until its end (R276). -/
def State.stepBusy (t : Nat) (s : State) : State :=
  if s.dmaType = some .vbusToVram then s
  else { s.setDmaBusy with dmaEndCycles := t + s.stepCycles t }

/-- A step up to its completion check: busy bit, remaining length, units (R265). -/
def State.dmaTransfer (t : Nat) (s : State) : State :=
  State.dmaUnits (s.stepUnits t)
    { (s.stepBusy t) with dmaRemaining := s.dmaRemaining - s.stepUnits t }

/-! ### Completion (R273, R274) -/

/-- `SourceWriteback()` (R274), whatever `m5` is (log entry 24). -/
def State.sourceWriteback (s : State) : State :=
  match s.dmaType with
  | some .vbusToVram =>
    (s.setReg 21 (s.dmaSource.extractLsb' 1 8)).setReg 22 (s.dmaSource.extractLsb' 9 8)
  | some .vramCopy =>
    (s.setReg 21 (s.dmaSource.extractLsb' 0 8)).setReg 22 (s.dmaSource.extractLsb' 8 8)
  | some .vramFill => s
  | none => s

/-- Both hardware length registers zeroed, directly (R273): also where `m5` was cleared while a fill or copy was
in flight, though R46 has registers 11 to 23 unchanged then (log entry 24; DESIGN CHOICE, unsafe). -/
def State.clearLength (s : State) : State := (s.setReg 19 0#8).setReg 20 0#8

/-- The source registers written back where the instance does so (R273, R274). -/
def State.writebackIf (s : State) : State :=
  if s.cfg.dmaSourceWriteback then s.sourceWriteback else s

/-- `DmaComplete` up to the replay: length registers zeroed, request destroyed (R273). -/
def State.dmaFinish (s : State) : State :=
  { s.clearLength.writebackIf with dmaType := none, fillArmed := false }

/-- A step that replays nothing: the step of a request a replayed control write starts, where no other
write is deferred (R282; log entry 11). -/
def State.dmaStepPlain (t : Nat) (s : State) : State × Nat :=
  if (s.dmaTransfer t).dmaRemaining = 0 then ((s.dmaTransfer t).dmaFinish, s.stepClock t)
  else (s.dmaTransfer t, s.stepClock t)

/-! ### Request construction (R260 to R264) -/

/-- The length of a request, 0 read as 65536 (R260, R264). -/
def State.dmaLength (s : State) : Nat := if s.dmaLen = 0#16 then 65536 else s.dmaLen.toNat

/-- The request `DmaTrigger` builds (R260, R263). -/
def State.dmaRequest (s : State) : State :=
  match s.dmaKind with
  | .vbusToVram =>
    { s with
      dmaType := some .vbusToVram
      dmaSource := s.dmaSrcHi ++ s.dmaSrcLo ++ 0#1
      dmaRemaining := s.dmaLength
      fillArmed := false }
  | .vramFill =>
    { s with dmaType := some .vramFill, dmaRemaining := s.dmaLength, fillArmed := true }
  | .vramCopy =>
    { s with
      dmaType := some .vramCopy
      dmaSource := s.dmaSrcLo.setWidth 24
      dmaRemaining := s.dmaLength
      fillArmed := false }

/-- `DmaTrigger(t)`: the first step of a VBusToVram or VramCopy runs at once, a VramFill waits for its
byte (R260, R261). `step` is the DMA step to run. -/
def State.dmaTrigger (step : Nat → State → State × Nat) (t : Nat) (s : State) : State × Nat :=
  match s.dmaKind with
  | .vbusToVram => step t s.dmaRequest
  | .vramFill => (s.dmaRequest, t)
  | .vramCopy => step t s.dmaRequest

/-! ### The effects of control writes (R131 to R133, R150 to R157) -/

/-- CTRL_A1: address bits 13:0 and code bits 1:0 are written at once (R132). -/
def State.effectA1 (cd : BitVec 2) (a : BitVec 14) (s : State) : State :=
  { s with
    addr := s.addr.extractLsb' 14 2 ++ a
    code := s.code.extractLsb' 2 4 ++ cd
    pending := true }

/-- CTRL_A2 up to its DMA check: address bits 15:14 and code bits 5:2 (R133). -/
def State.latchA2 (cd : BitVec 4) (a : BitVec 2) (s : State) : State :=
  { s with
    addr := a ++ s.addr.extractLsb' 0 14
    code := cd ++ s.code.extractLsb' 0 2
    pending := false }

/-- Whether the committed code starts a DMA: bit 5, DMA enabled, Mode 5 (R133). -/
def State.startsDma (s : State) : Bool := s.code.getLsbD 5 && s.dmaEn && s.m5

/-- What a committed 68000 address does: a DMA request, else the prefetch of a read code (R133, R197). -/
def State.commitA2 (step : Nat → State → State × Nat) (t : Nat) (s : State) : State × Nat :=
  if s.startsDma then s.dmaTrigger step t
  else if isReadCode s.target then (s.refill16, t)
  else (s, t)

/-- CTRL_A2 (R133). -/
def State.effectA2 (step : Nat → State → State × Nat) (cd : BitVec 4) (a : BitVec 2) (t : Nat)
    (s : State) : State × Nat :=
  (s.latchA2 cd a).commitA2 step t

/-- CTRL_B1 (R150). -/
def State.effectB1 (b : Byte) (s : State) : State := { s with ctrlLatch := b, pending := true }

/-- The address and code a second byte commits (R112, R151, R153). -/
def State.latchB2 (cd : BitVec 2) (a : BitVec 6) (s : State) : State :=
  { s with
    addr := (a ++ s.ctrlLatch).setWidth 16
    code := cd.setWidth 6
    pending := false }

/-- CTRL_B2_ADDR, with the prefetch of code 00 (R151, R152). -/
def State.effectB2Addr (cd : BitVec 2) (a : BitVec 6) (s : State) : State :=
  if cd = 0b00#2 then (s.latchB2 cd a).refill8 else s.latchB2 cd a

/-- The register index of a CTRL_B2_REG byte, `v & Z80_REG_MASK`, masked to the 32 registers (R105, R153,
R86; log entry 15). -/
def State.z80Index (b : Byte) (s : State) : BitVec 5 := (b &&& s.cfg.z80RegMask).setWidth 5

/-- CTRL_B2_REG (R153). -/
def State.effectB2Reg (a : BitVec 6) (t : Nat) (s : State) : State :=
  (s.latchB2 0b10#2 a).writeRegister (s.z80Index (byteB2Reg a)) s.ctrlLatch t

/-- The address a CTRL_T2_ADDR commits, un-scrambled while `bigVram = 0` (R155, R157). -/
def State.tmsAddr (a : BitVec 6) (s : State) : BitVec 14 :=
  if s.bigVram then a ++ s.ctrlLatch else tms4kMap s.cfg (a ++ s.ctrlLatch)

/-- CTRL_T2_ADDR up to its prefetch (R155). -/
def State.latchT2 (rw : BitVec 1) (a : BitVec 6) (s : State) : State :=
  { s with addr := (s.tmsAddr a).setWidth 16, code := rw.setWidth 6, pending := false }

/-- CTRL_T2_ADDR (R155). -/
def State.effectT2Addr (rw : BitVec 1) (a : BitVec 6) (s : State) : State :=
  if rw = 0#1 then (s.latchT2 rw a).refill8 else s.latchT2 rw a

/-- CTRL_T2_REG (R156). -/
def State.effectT2Reg (idx : BitVec 3) (t : Nat) (s : State) : State :=
  State.writeRegister (idx.setWidth 5) s.ctrlLatch t { s with pending := false }

/-- The FIFO latency recomputed after every control write that is not deferred (R134). -/
def State.relatch (s : State) : State := { s with fifoLatency := s.latencyNow }

/-! ### Replaying a deferred control write (R273, R282) -/

/-- The effect of an operation that is a control write; any other has none here. -/
def controlEffect (step : Nat → State → State × Nat) (i : Instr) (s : State) : State × Nat :=
  match i with
  | .ctrlRw _ idx data t => (s.writeRegister idx data t, t)
  | .ctrlA1 cd a t => (s.effectA1 cd a, t)
  | .ctrlA2 _ cd _ a t => s.effectA2 step cd a t
  | .ctrlB1 b t => (s.effectB1 b, t)
  | .ctrlB2Addr cd a t => (s.effectB2Addr cd a, t)
  | .ctrlB2Reg a t => (s.effectB2Reg a t, t)
  | .ctrlT2Addr rw a t => (s.effectT2Addr rw a, t)
  | .ctrlT2Reg _ idx t => (s.effectT2Reg idx t, t)
  | .dataW16 _ t => (s, t)
  | .dataW8 _ t => (s, t)
  | .dataR16 t => (s, t)
  | .dataR8 t => (s, t)
  | .ctrlR16 t => (s, t)
  | .ctrlR8 t => (s, t)
  | .hvR16 t => (s, t)
  | .vR8 t => (s, t)
  | .hR8 t => (s, t)
  | .advance t => (s, t)
  | .latchHv t => (s, t)
  | .raster _ _ t => (s, t)
  | .reset t => (s, t)
  | .serialize t => (s, t)
  | .deserialize _ t => (s, t)

/-- A deferred word decoded as the control write it was, by variant and `pending` (R130, R282). -/
def State.decodeDeferred (v : Word) (t : Nat) (s : State) : Instr :=
  if s.cfg.variant.isWord then decodeControl16 s.pending v t
  else decodeControl8 s.cfg.variant s.pending (loByte v) t

/-- `writeControl(v, tEnd)` of a replay: decoded effect, then the FIFO latency (R130, R134, R282). -/
def State.replayWrite (v : Word) (tEnd : Nat) (s : State) : State :=
  (controlEffect State.dmaStepPlain (s.decodeDeferred v tEnd) s).1.relatch

/-- The replay of the deferred control write, if there is one (R273). -/
def State.replay (tEnd : Nat) (s : State) : State :=
  match s.deferredCtrl with
  | none => s
  | some v => State.replayWrite v tEnd { s with deferredCtrl := none }

/-- `DmaComplete(tEnd)` (R273). -/
def State.dmaComplete (tEnd : Nat) (s : State) : State := s.dmaFinish.replay tEnd

/-- `DmaStep(t)`: the state and the caller's clock (R265). -/
def State.dmaStep (t : Nat) (s : State) : State × Nat :=
  if (s.dmaTransfer t).dmaRemaining = 0 then
    ((s.dmaTransfer t).dmaComplete (t + s.stepCycles t), s.stepClock t)
  else (s.dmaTransfer t, s.stepClock t)

/-- `FillStart(w, t)` (R280). A code that is no VRAM write leaves the refusal mark after the data word's
write (R326; log entry 9). -/
def State.fillStart (w : Word) (t : Nat) (s : State) : State × Nat :=
  if s.target = 0x1#4 then
    State.dmaStep t { s with fillByte := hiByte w, fillArmed := false }
  else ({ s with fillByte := hiByte w, fillArmed := false, refused := some .fillNonVram }, t)

end Sys2Proof.Machine
end

