-- ==== Sys2Proof/Machine/Control.lean ====
section
/-! DEFINITION. Control-port writes (40_control_port.md): CTRL_RW, CTRL_A1, CTRL_A2, CTRL_B1, CTRL_B2_ADDR,
CTRL_B2_REG, CTRL_T2_ADDR, CTRL_T2_REG. -/

namespace Sys2Proof.Machine

/-- A control write that arrives during a CPU-freezing DMA is kept, undecoded (R130, R281). -/
def deferWrite (v : Word) (t : Nat) (s : State) : Res :=
  match s.deferredCtrl with
  | none => finish none t { s with deferredCtrl := some v }
  | some _ => .fault .deferredOverflow

/-- `writeControl(v, t)` (R130): deferral, else the decoded effect and the FIFO latency (R134), in the
order of R326. `eff` gives the state and the caller's clock. -/
def controlWrite (ok : Variant → Bool) (v : Word) (t : Nat) (eff : State → State × Nat)
    (s : State) : Res :=
  andThen (enter .cpu t s) fun s =>
    if s.dmaType = some .vbusToVram then deferWrite v t s
    else andThen (onlyOn ok s) fun s => finish none (eff s).2 (eff s).1.relatch

/-- CTRL_RW (R131). -/
def execCtrlRw (ign : BitVec 1) (idx : BitVec 5) (data : Byte) (t : Nat) (s : State) : Res :=
  controlWrite Variant.isWord (wordRw ign idx data) t
    (fun s => (s.writeRegister idx data t, t)) s

/-- CTRL_A1 (R132). -/
def execCtrlA1 (cd : BitVec 2) (a : BitVec 14) (t : Nat) (s : State) : Res :=
  controlWrite Variant.isWord (wordA1 cd a) t (fun s => (s.effectA1 cd a, t)) s

/-- CTRL_A2 (R133). -/
def execCtrlA2 (hi : BitVec 8) (cd : BitVec 4) (mid a : BitVec 2) (t : Nat) (s : State) : Res :=
  controlWrite Variant.isWord (wordA2 hi cd mid a) t
    (fun s => s.effectA2 State.dmaStep cd a t) s

/-- CTRL_B1 (R150). -/
def execCtrlB1 (b : Byte) (t : Nat) (s : State) : Res :=
  controlWrite Variant.isByte (b.setWidth 16) t (fun s => (s.effectB1 b, t)) s

/-- CTRL_B2_ADDR (R151). -/
def execCtrlB2Addr (cd : BitVec 2) (a : BitVec 6) (t : Nat) (s : State) : Res :=
  controlWrite Variant.isZ80 ((byteB2Addr cd a).setWidth 16) t
    (fun s => (s.effectB2Addr cd a, t)) s

/-- CTRL_B2_REG (R153). -/
def execCtrlB2Reg (a : BitVec 6) (t : Nat) (s : State) : Res :=
  controlWrite Variant.isZ80 ((byteB2Reg a).setWidth 16) t (fun s => (s.effectB2Reg a t, t)) s

/-- CTRL_T2_ADDR (R155). -/
def execCtrlT2Addr (rw : BitVec 1) (a : BitVec 6) (t : Nat) (s : State) : Res :=
  controlWrite Variant.isTms ((byteT2Addr rw a).setWidth 16) t
    (fun s => (s.effectT2Addr rw a, t)) s

/-- CTRL_T2_REG (R156). -/
def execCtrlT2Reg (ign : BitVec 4) (idx : BitVec 3) (t : Nat) (s : State) : Res :=
  controlWrite Variant.isTms ((byteT2Reg ign idx).setWidth 16) t
    (fun s => (s.effectT2Reg idx t, t)) s

end Sys2Proof.Machine
end

