-- ==== Sys2Proof/Machine/Data.lean ====
section
/-! DEFINITION. Data-port accesses (41_data_port.md): DATA_W16, DATA_W8, DATA_R16, DATA_R8. -/

namespace Sys2Proof.Machine

/-- `pending` cleared, the FIFO charged: the state and the caller's clock (R170, R243). -/
def State.noteData (t : Nat) (s : State) : State × Nat :=
  State.fifoNoteWrite t { s with pending := false }

/-- A 68000 data write up to an armed fill's start: FIFO, target, address (R170). -/
def State.dataStore16 (w : Word) (t : Nat) (s : State) : State := (s.noteData t).1.busWrite w

/-- A 68000 data write in Mode 5 (R170): then an armed fill starts at the caller's clock. -/
def State.dataWrite16 (w : Word) (t : Nat) (s : State) : State × Nat :=
  if (s.dataStore16 w t).fillArmed then (s.dataStore16 w t).fillStart w (s.noteData t).2
  else (s.dataStore16 w t, (s.noteData t).2)

/-- DATA_W16 (R170). -/
def execDataW16 (w : Word) (t : Nat) (s : State) : Res :=
  andThen (portAccess Variant.isWord t s) fun s =>
    if s.m5 then finish none (s.dataWrite16 w t).2 (s.dataWrite16 w t).1
    else refuse .data68KMode4

/-- A byte data write: the store, the write-through to the buffer, the address (R180, R183, R184). -/
def State.dataWrite8 (v : Byte) (s : State) : State :=
  State.advance14
    { (State.byteStore { s with pending := false } v) with readBuf := v.setWidth 16 }

/-- DATA_W8 (R180, R183, R184, R185). -/
def execDataW8 (v : Byte) (t : Nat) (s : State) : Res :=
  andThen (portAccess Variant.isByte t s) fun s => finish none t (s.dataWrite8 v)

/-- DATA_R16 (R190): the buffer's value, then the refill; at a code that is no read code the CPU may be
left stuck before the read completes (R196; log entry 6). -/
def execDataR16 (t : Nat) (s : State) : Res :=
  andThen (portAccess Variant.isWord t s) fun s =>
    if s.m5 then
      if s.targetSticks then
        finish none t { s.drawn with pending := false, cpuStuck := true }
      else finish (some s.readBuf) t (State.refill16 { s with pending := false })
    else refuse .data68KMode4

/-- DATA_R8 (R198). -/
def execDataR8 (t : Nat) (s : State) : Res :=
  andThen (portAccess Variant.isByte t s) fun s =>
    finish (some (s.readBuf &&& 0x00FF#16)) t (State.refill8 { s with pending := false })

end Sys2Proof.Machine
end

