-- ==== Sys2Proof/Machine/HostOps.lean ====
section
/-! DEFINITION. Host operations (44_dma.md R283, 45_host_ops.md, 70_reset_and_hazards.md): ADVANCE, RASTER,
RESET, SERIALIZE, DESERIALIZE. -/

namespace Sys2Proof.Machine

/-- ADVANCE (R283): one DMA step; an armed fill waits for its byte. -/
def execAdvance (t : Nat) (s : State) : Res :=
  andThen (enter .host t s) fun s =>
    if s.dmaType = none then .fault .advanceWithoutDma
    else if s.fillArmed then finish none t s
    else finish none (s.dmaStep t).2 (s.dmaStep t).1

/-- RASTER (R307). -/
def execRaster (setMask clearMask : Byte) (t : Nat) (s : State) : Res :=
  andThen (enter .host t s) fun s =>
    finish none t { s with status := rasterStatus setMask clearMask s.status }

/-- `reset()` (R340, R342): every field at its reset value but the configuration, `lastT` and the marks;
the model's own stuck CPU, inbox and draw counter are not the block's to reset (log entries 1, 4, 7). -/
def State.resetBlock (s : State) : State :=
  { State.create s.cfg with
    lastT := s.lastT
    faulted := s.faulted
    refused := s.refused
    cpuStuck := s.cpuStuck
    inbox := s.inbox
    draws := s.draws }

/-- RESET (R340). -/
def execReset (t : Nat) (s : State) : Res :=
  andThen (enter .host t s) fun s => finish none t s.resetBlock

/-- The snapshot `serialize` returns (R303). -/
def State.capture (s : State) : Snapshot where
  reg := s.reg
  addr := s.addr
  code := s.code
  pending := s.pending
  ctrlLatch := s.ctrlLatch
  readBuf := s.readBuf
  ggLatch := s.ggLatch
  status := s.status
  fifoCount := s.fifoCount
  fifoLastWrite := s.fifoLastWrite
  dmaType := s.dmaType
  dmaRemaining := s.dmaRemaining
  dmaSource := s.dmaSource
  fillArmed := s.fillArmed
  fillByte := s.fillByte
  dmaEndCycles := s.dmaEndCycles
  deferredCtrl := s.deferredCtrl
  hvLatch := s.hvLatch
  lastT := s.lastT
  vram := s.vram
  cram := s.cram
  vsram := s.vsram

/-- SERIALIZE (R303): the state is unchanged, the snapshot is given back. -/
def execSerialize (t : Nat) (s : State) : Res :=
  andThen (enter .host t s) fun s => .next { s with out := ⟨none, t, some s.capture⟩ }

/-- Every captured field replaced (R305). -/
def State.restoreFields (x : Snapshot) (s : State) : State :=
  { s with
    reg := x.reg
    addr := x.addr
    code := x.code
    pending := x.pending
    ctrlLatch := x.ctrlLatch
    readBuf := x.readBuf
    ggLatch := x.ggLatch
    status := x.status
    fifoCount := x.fifoCount
    fifoLastWrite := x.fifoLastWrite
    dmaType := x.dmaType
    dmaRemaining := x.dmaRemaining
    dmaSource := x.dmaSource
    fillArmed := x.fillArmed
    fillByte := x.fillByte
    dmaEndCycles := x.dmaEndCycles
    deferredCtrl := x.deferredCtrl
    hvLatch := x.hvLatch
    lastT := x.lastT
    vram := x.vram
    cram := x.cram
    vsram := x.vsram }

/-- The SAT shadow rebuilt from VRAM (R75, R305): every VRAM byte in range mirrored, every other byte 0. -/
def State.satRebuilt (s : State) : Memory :=
  s.vram.foldl (fun m c =>
    if s.inSat (BitVec.ofNat 16 c.1) then m.write (s.satIdx (BitVec.ofNat 16 c.1)) c.2 else m) []

/-- All 2048 tiles (R305). -/
def allTiles : List Nat := List.range 2048

/-- What was not captured rebuilt: the derived caches, the FIFO latency, the SAT shadow, every tile
dirty (R305). -/
def State.rebuild (s : State) : State :=
  { s.recomputeDerived.relatch with sat := s.satRebuilt, dirty := allTiles }

/-- `deserialize(snapshot)`: captured fields replaced, then the rest rebuilt (R305). -/
def State.restore (x : Snapshot) (s : State) : State := (s.restoreFields x).rebuild

/-- DESERIALIZE (R305). -/
def execDeserialize (x : Snapshot) (t : Nat) (s : State) : Res :=
  andThen (enter .host t s) fun s => finish none t (s.restore x)

end Sys2Proof.Machine
end

