-- ==== Sys2Proof/Machine/StatusHv.lean ====
section
/-! DEFINITION. Status reads and the HV counter (42_status_hv.md): CTRL_R16, CTRL_R8, HV_R16, V_R8, H_R8,
LATCH_HV. -/

namespace Sys2Proof.Machine

/-- What a status read does before it composes its value (R210, R279; log entry 19). -/
def State.statusUpdate (t : Nat) (s : State) : State := (s.fifoUpdate t).dmaBusyUpdate t

/-- CTRL_R16 (R210, R212). -/
def execCtrlR16 (t : Nat) (s : State) : Res :=
  andThen (portAccess Variant.isWord t s) fun s =>
    finish (some ((s.statusUpdate t).statusValue ||| (s.nextDraw &&& 0xFC00#16))) t
      (s.statusUpdate t).statusClear.drawn

/-- CTRL_R8 (R211). -/
def execCtrlR8 (t : Nat) (s : State) : Res :=
  andThen (portAccess Variant.isByte t s) fun s =>
    finish (some (((s.statusUpdate t).statusValue &&& 0x00E0#16) ||| (s.nextDraw &&& 0x001F#16))) t
      (s.statusUpdate t).statusClear.drawn

/-- The line count before it is reduced: `f / CYCLES_PER_LINE - 1`, modulo the lines of a frame (R221). -/
def lineCount (c : Config) (t : Nat) : Int :=
  (((frameCycles c t / c.cyclesPerLine : Nat) : Int) - 1) % (c.linesPerFrame : Int)

/-- The vertical count jumped back past the overflow constant, as 9 bits (R221). -/
def State.verticalLine (t : Nat) (s : State) : BitVec 9 :=
  if lineCount s.cfg t > (vcMax s.cfg s.renderMode s.displayLines : Int) then
    BitVec.ofInt 9 (lineCount s.cfg t - (s.cfg.linesPerFrame : Int))
  else BitVec.ofInt 9 (lineCount s.cfg t)

/-- The interlaced form of a vertical count: shifted by the interlace flag, bit 0 replaced by bit 8
(R221). -/
def interlaced (im2 : Bool) (v : BitVec 9) : BitVec 9 :=
  let u := v.setWidth 10 <<< (if im2 then 1 else 0 : Nat)
  (u.extractLsb' 0 9 &&& 0x1FE#9) ||| (u.extractLsb' 8 1).setWidth 9

/-- `VCount(t)` (R221). -/
def State.vCount (t : Nat) (s : State) : BitVec 9 :=
  if s.interlace then interlaced s.im2 (s.verticalLine t) else s.verticalLine t

/-- `VCount(t)[7:0]` (R220). -/
def State.vByte (t : Nat) (s : State) : Byte := (s.vCount t).extractLsb' 0 8

/-- `HCount(t)` (R224). -/
def State.hCount (t : Nat) (s : State) : Byte := hcTable s.cfg s.h40 (t % s.cfg.cyclesPerLine)

/-- `HVLive(t)` (R220). -/
def State.hvLive (t : Nat) (s : State) : Word := s.vByte t ++ s.hCount t

/-- The value of an HV read: the latch in Mode 5, only its horizontal half in Mode 4, else the live
counter (R220). -/
def State.hvValue (t : Nat) (s : State) : Word :=
  match s.hvLatch with
  | none => s.hvLive t
  | some l => if s.m5 then l else s.vByte t ++ loByte l

/-- The horizontal byte a byte variant reads (R226). -/
def State.hByte (t : Nat) (s : State) : Byte :=
  match s.hvLatch with
  | none => s.hCount t
  | some l => loByte l

/-- HV_R16 (R220, R227). -/
def execHvR16 (t : Nat) (s : State) : Res :=
  andThen (portAccess Variant.isWord t s) fun s => finish (some (s.hvValue t)) t s

/-- V_R8 (R226). -/
def execVR8 (t : Nat) (s : State) : Res :=
  andThen (portAccess Variant.isByte t s) fun s =>
    if s.cfg.variant.isTms then refuse .noCounterPortTMS
    else finish (some ((s.vByte t).setWidth 16)) t s

/-- H_R8 (R226). -/
def execHR8 (t : Nat) (s : State) : Res :=
  andThen (portAccess Variant.isByte t s) fun s =>
    if s.cfg.variant.isTms then refuse .noCounterPortTMS
    else finish (some ((s.hByte t).setWidth 16)) t s

/-- Whether the external latch input is taken (R225). -/
def State.latchOpen (s : State) : Bool := !s.m5 || s.hvLatchEn

/-- LATCH_HV (R225). -/
def execLatchHv (t : Nat) (s : State) : Res :=
  andThen (enter .host t s) fun s =>
    finish none t (if s.latchOpen then { s with hvLatch := some (s.hvLive t) } else s)

end Sys2Proof.Machine
end

