-- ==== Sys2Proof/Machine/Dispatch.lean ====
section
/-! DEFINITION. One arm per operation of the block: a call of its meaning. -/

namespace Sys2Proof.Machine

def exec (i : Instr) (s : State) : Host.Outcome State Fault Refusal :=
  match i with
  | .ctrlRw ign idx data t => Sys2Proof.Machine.execCtrlRw ign idx data t s
  | .ctrlA1 cd a t => Sys2Proof.Machine.execCtrlA1 cd a t s
  | .ctrlA2 hi cd mid a t => Sys2Proof.Machine.execCtrlA2 hi cd mid a t s
  | .ctrlB1 b t => Sys2Proof.Machine.execCtrlB1 b t s
  | .ctrlB2Addr cd a t => Sys2Proof.Machine.execCtrlB2Addr cd a t s
  | .ctrlB2Reg a t => Sys2Proof.Machine.execCtrlB2Reg a t s
  | .ctrlT2Addr rw a t => Sys2Proof.Machine.execCtrlT2Addr rw a t s
  | .ctrlT2Reg ign idx t => Sys2Proof.Machine.execCtrlT2Reg ign idx t s
  | .dataW16 w t => Sys2Proof.Machine.execDataW16 w t s
  | .dataW8 v t => Sys2Proof.Machine.execDataW8 v t s
  | .dataR16 t => Sys2Proof.Machine.execDataR16 t s
  | .dataR8 t => Sys2Proof.Machine.execDataR8 t s
  | .ctrlR16 t => Sys2Proof.Machine.execCtrlR16 t s
  | .ctrlR8 t => Sys2Proof.Machine.execCtrlR8 t s
  | .hvR16 t => Sys2Proof.Machine.execHvR16 t s
  | .vR8 t => Sys2Proof.Machine.execVR8 t s
  | .hR8 t => Sys2Proof.Machine.execHR8 t s
  | .advance t => Sys2Proof.Machine.execAdvance t s
  | .latchHv t => Sys2Proof.Machine.execLatchHv t s
  | .raster setMask clearMask t => Sys2Proof.Machine.execRaster setMask clearMask t s
  | .reset t => Sys2Proof.Machine.execReset t s
  | .serialize t => Sys2Proof.Machine.execSerialize t s
  | .deserialize snap t => Sys2Proof.Machine.execDeserialize snap t s

end Sys2Proof.Machine
end

