-- ==== Sys2Proof/Machine/Step.lean ====
section
/-! DEFINITION. One step of the machine: the next event of the agents' one total order (R88, R89; log
entry 1), and the placing of a bare word of the opcode table where the step takes its next event (log
entry 12). -/

namespace Sys2Proof.Machine

/-- One step: nothing issued, the block is idle; an access is decoded by the variant and `pending`
(R100, R114) and run, but one of a stuck CPU, which is passed over (R325); a renderer turn is taken between
operations (R306). -/
def step (s : State) : Host.Outcome State Fault Refusal :=
  match s.inbox with
  | [] => idle s
  | .render clearDirty :: rest => rendererTurn clearDirty { s with inbox := rest }
  | .op a :: rest =>
    if heldBack a s then idle { s with inbox := rest }
    else
      match decode s.cfg.variant s.pending a with
      | .ok i => exec i { s with inbox := rest }
      | .error r => rejectAccess a r { s with inbox := rest }

/-- The access a bare word of the opcode table stands for, issued next, on the variant and in the phase
it stands for. -/
def State.withFetchWord (s : State) (nbits w : Nat) : State :=
  match tableAccess nbits w s.lastT with
  | none => s
  | some (v, pending, a) =>
    { s with cfg := { s.cfg with variant := v }, pending := pending, inbox := .op a :: s.inbox }

end Sys2Proof.Machine
end

