-- ==== Sys2Proof/Safety.lean ====
section
/-! DEFINITION. When an operation is one its agent may issue (R301, R308), and the invariants of the state
(R46 and the forms of R34, R39 to R43, R71, R73), in the terms the claims use. -/

namespace Sys2Proof.Machine

/-- The host may issue an operation at a timestamp: no mark ended the run (R322), time does not go back
(R301). -/
abbrev HostReady (s : State) (t : Nat) : Prop :=
  s.faulted = none ∧ s.refused = none ∧ s.lastT ≤ t

/-- The CPU may issue a port operation at a timestamp: as the host, and it is not stuck (R325). -/
abbrev CpuReady (s : State) (t : Nat) : Prop := HostReady s t ∧ s.cpuStuck = false

/-- No CPU-freezing DMA is in flight (R278, R281). -/
abbrev Unfrozen (s : State) : Prop := s.dmaType ≠ some .vbusToVram

/-- The CPU may make a port access other than a control write (R278, R301, R325). -/
abbrev PortReady (s : State) (t : Nat) : Prop := CpuReady s t ∧ Unfrozen s

/-- The timestamp an operation carries (R301). -/
def instrTime (i : Instr) : Nat := (encode i).time

/-- Whether an operation is a CPU port access (R300). -/
def instrFromCpu (i : Instr) : Bool := (encode i).fromCpu

/-- A run that stops does so at a contract violation, a refusal or a stuck CPU; it is safe while every
outcome is a next state. -/
abbrev Goes (r : Res) : Prop := ∃ s, r = .next s

/-! ### Invariants -/

/-- Every bank is in its canonical form and within its size, CRAM's upper bytes hold one bit, the dirty
set is one (R39, R40, R70, R73). -/
abbrev BankForm (s : State) : Prop :=
  Memory.wf 65536 s.vram = true ∧ cramForm s.cram = true ∧ Memory.wf 128 s.vsram = true ∧
  Memory.wf 65536 s.sat = true ∧ tilesFrom 0 s.dirty = true

/-- The stored status word holds only bits 1 to 7 (R34). -/
abbrev StatusForm (s : State) : Prop := statusForm s.status = true

/-- The FIFO holds at most four writes, none while Mode 5 is off, and its latency is that of the current
mode and code (R46, R134, R246). -/
abbrev FifoForm (s : State) : Prop :=
  s.fifoCount ≤ 4 ∧ (s.m5 = false → s.fifoCount = 0) ∧ s.fifoLatency = s.latencyNow

/-- A request has units left exactly while one is in flight, at most 65536, and an armed fill is a VramFill
(R36, R46). -/
abbrev DmaForm (s : State) : Prop :=
  (s.dmaRemaining = 0 ↔ s.dmaType = none) ∧ s.dmaRemaining ≤ 65536 ∧
  (s.fillArmed = true → s.dmaType = some .vramFill)

/-- On the byte variants: 14-bit addresses, 2-bit codes, 8-bit buffer, no DMA, registers 11 to 23 and the
VRAM above index 16383 at their reset value (R23, R24, R27, R31, R46, R71). -/
abbrev ByteForm (s : State) : Prop :=
  s.cfg.variant.isByte = true →
    s.addr.toNat < 16384 ∧ s.code.toNat < 4 ∧ s.readBuf.toNat < 256 ∧ s.dmaType = none ∧
    s.fillArmed = false ∧ (∀ i : BitVec 5, 11#5 ≤ i → i ≤ 23#5 → s.rd i = 0#8) ∧
    Memory.wf 16384 s.vram = true

/-- The cached values are those the registers and CRAM give (R41, R42, R43). -/
abbrev CacheForm (s : State) : Prop :=
  s.renderMode = s.renderModeNow ∧ s.displayLines = s.displayLinesNow ∧
  s.backdropColor = s.backdropNow

/-- An invariant holds of a state, and of what every snapshot still to be deserialized restores: the host
deserializes only a snapshot of the same configuration (R308; log entry 16). -/
def Kept (P : State → Prop) (s : State) : Prop :=
  P s ∧ ∀ x t, Event.op (.deserialize x t) ∈ s.inbox → P ((State.create s.cfg).restore x)

/-! ### Runs the claims speak of -/

/-- A host that calls ADVANCE once at the start of each of a number of successive lines (R284, R308). -/
def advanceLines : Nat → Nat → State → Res
  | 0, _, s => .next s
  | n + 1, t, s => andThen (exec (.advance t) s) (advanceLines n (t + s.cfg.cyclesPerLine))

/-- The values a sequence of status reads at given times returns, none where a read gives no next state
(R305). -/
def statusReads (read : Nat → Instr) : List Nat → State → Option (List (Option Word))
  | [], _ => some []
  | t :: ts, s =>
    match exec (read t) s with
    | .next s' => (statusReads read ts s').map (s'.out.value :: ·)
    | .fault _ => none
    | .refused _ => none

/-- An operation that writes the control port (R130). -/
def instrIsControlWrite (i : Instr) : Bool := (encode i).isControlWrite

/-- The 16 bits a control write would be deferred as (R281): the word, or the byte zero-extended. -/
def instrWord (i : Instr) : Word :=
  match encode i with
  | .write16 _ w _ => w
  | .write8 _ b _ => b.setWidth 16
  | .read16 _ _ => 0#16
  | .read8 _ _ => 0#16
  | .advance _ => 0#16
  | .latchHv _ => 0#16
  | .raster _ _ _ => 0#16
  | .reset _ => 0#16
  | .serialize _ => 0#16
  | .deserialize _ _ => 0#16

end Sys2Proof.Machine
end

