-- ==== Sys2Proof/Certificates/Slice0/Obligations.lean ====
section
/-! DEFINITION. The statements about the machine, for the provers: each docstring names the rules of spec/
it formalises. -/

open Sys2Proof Sys2Proof.Machine

/-! ### Reset -/

/-- R44: what `create` leaves in every instance, whatever its configuration. -/
def Obligations.CreateGivesResetValues : Prop :=
  ∀ c : Config, ∀ s : State, s = State.create c →
    (∀ i, s.rd i = 0#8) ∧ s.addr = 0#16 ∧ s.code = 0#6 ∧ s.pending = false ∧ s.ctrlLatch = 0#8 ∧
    s.readBuf = 0#16 ∧ s.ggLatch = 0#8 ∧ s.status = 0#16 ∧ s.fifoCount = 0 ∧ s.fifoLastWrite = 0 ∧
    s.dmaType = none ∧ s.fillArmed = false ∧ s.deferredCtrl = none ∧ s.hvLatch = none ∧
    (∀ a, s.vram.read a = 0#8) ∧ (∀ a, s.cram.read a = 0#8) ∧ (∀ a, s.vsram.read a = 0#8) ∧
    (∀ a, s.sat.read a = 0#8) ∧ s.dirty = [] ∧
    s.renderMode = .tms ∧ s.displayLines = .lines192 ∧ s.backdropColor = 0#9 ∧ CacheForm s

/-- R340, R342: RESET gives every field its reset value but the configuration, `lastT` and the marks
(none in a ready state); the model's own stuck CPU, inbox and draw counter stay (log entries 1, 4, 7). -/
def Obligations.ResetZeroesTheBlock : Prop :=
  ∀ (s : State) (t : Nat), HostReady s t →
    exec (.reset t) s = .next
      { State.create s.cfg with
        lastT := t, cpuStuck := s.cpuStuck, inbox := s.inbox, draws := s.draws, out := ⟨none, t, none⟩ }

/-! ### Memory banks -/

/-- R72, R75, R76: `VramPut` stores one byte, marks its tile unless the byte is identical, mirrors it into the
SAT shadow if its logical index is in range (with bit 0 flipped on `V68K`, itself on the byte variants), and
changes nothing else. -/
def Obligations.VramPutStoresMarksMirrors : Prop :=
  ∀ (s : State) (i : Word) (v : Byte),
    (∀ b : Word, s.logIdx b = if s.cfg.variant = .v68k then b ^^^ 1#16 else b) ∧
    (∀ j, (s.vramPut i v).vram.read j = if j = i.toNat then v else s.vram.read j) ∧
    (s.vram.read i.toNat = v → (s.vramPut i v).vram = s.vram ∧ (s.vramPut i v).dirty = s.dirty) ∧
    (s.vram.read i.toNat ≠ v →
      ∀ k, k ∈ (s.vramPut i v).dirty ↔ k = i.toNat / 32 ∨ k ∈ s.dirty) ∧
    (∀ j, (s.vramPut i v).sat.read j =
      if s.satRange.1.toNat ≤ (s.logIdx i).toNat ∧
          (s.logIdx i).toNat < s.satRange.1.toNat + s.satRange.2 ∧
          j = (s.logIdx i).toNat - s.satRange.1.toNat then v
      else s.sat.read j) ∧
    s.vramPut i v =
      { s with
        vram := (s.vramPut i v).vram, dirty := (s.vramPut i v).dirty, sat := (s.vramPut i v).sat }

/-- R75, R77, R78, R85: a VRAM word write stores its low byte at the even index and its high byte at the odd
one, swapped at an odd address; it marks the word's tile exactly when a byte of it changes, and a word
whose bytes both match changes neither VRAM nor the dirty set; it mirrors each byte whose logical address
is in range into the SAT shadow and changes nothing else; a word read gives the stored word back whatever
bit 0 of its address. -/
def Obligations.VramWordsAreLittleEndian : Prop :=
  ∀ (s : State) (a w : Word) (lo hi : Byte) (l h base : Nat),
    lo = (if a.getLsbD 0 then w.extractLsb' 8 8 else w.extractLsb' 0 8) →
    hi = (if a.getLsbD 0 then w.extractLsb' 0 8 else w.extractLsb' 8 8) →
    l = (s.logIdx (a &&& 0xFFFE#16)).toNat → h = (s.logIdx (a ||| 0x0001#16)).toNat →
    base = s.satRange.1.toNat →
    (∀ j, (s.vramWordWrite a w).vram.read j =
      if j = a.toNat / 2 * 2 then lo else if j = a.toNat / 2 * 2 + 1 then hi
      else s.vram.read j) ∧
    (∀ k, k ∈ (s.vramWordWrite a w).dirty ↔ k ∈ s.dirty ∨
      (k = a.toNat / 32 ∧
        (s.vram.read (a.toNat / 2 * 2) ≠ lo ∨ s.vram.read (a.toNat / 2 * 2 + 1) ≠ hi))) ∧
    (s.vram.read (a.toNat / 2 * 2) = lo → s.vram.read (a.toNat / 2 * 2 + 1) = hi →
      (s.vramWordWrite a w).vram = s.vram ∧ (s.vramWordWrite a w).dirty = s.dirty) ∧
    (∀ j, (s.vramWordWrite a w).sat.read j =
      if base ≤ l ∧ l < base + s.satRange.2 ∧ j = l - base then lo
      else if base ≤ h ∧ h < base + s.satRange.2 ∧ j = h - base then hi
      else s.sat.read j) ∧
    s.vramWordWrite a w =
      { s with
        vram := (s.vramWordWrite a w).vram
        dirty := (s.vramWordWrite a w).dirty
        sat := (s.vramWordWrite a w).sat } ∧
    (∀ b : Word, b.toNat / 2 = a.toNat / 2 →
      (s.vramWordWrite a w).vramWordRead b =
        if a.getLsbD 0 then w.extractLsb' 0 8 ++ w.extractLsb' 8 8 else w)

/-- R79, R182: `CramWrite` stores an entry in its two bytes, leaves the other entries, republishes the
backdrop when the entry is the backdrop's, and marks no tile. -/
def Obligations.CramWriteStoresEntry : Prop :=
  ∀ (s : State) (i : BitVec 6) (v : Colour),
    (∀ j, (s.cramWrite i v).cram.read j =
      if j = 2 * i.toNat then v.extractLsb' 0 8
      else if j = 2 * i.toNat + 1 then (v.extractLsb' 8 1).setWidth 8
      else s.cram.read j) ∧
    (∀ k, cramEntry (s.cramWrite i v).cram k = if k = i then v else cramEntry s.cram k) ∧
    (s.cramWrite i v).backdropColor = (if i = s.backdropIdx then v else s.backdropColor) ∧
    s.cramWrite i v =
      { s with
        cram := (s.cramWrite i v).cram, backdropColor := (s.cramWrite i v).backdropColor }

/-- R80: VSRAM words, by address bits 6:1 only. -/
def Obligations.VsramWordsByAddressBits : Prop :=
  ∀ (s : State) (a w : Word),
    (∀ j, (s.vsramWrite a w).vsram.read j =
      if j = 2 * (a.toNat / 2 % 64) then w.extractLsb' 0 8
      else if j = 2 * (a.toNat / 2 % 64) + 1 then w.extractLsb' 8 8
      else s.vsram.read j) ∧
    (∀ b : Word, (s.vsramWrite a w).vsramRead b =
      if b.toNat / 2 % 64 = a.toNat / 2 % 64 then w else s.vsramRead b) ∧
    s.vsramWrite a w = { s with vsram := (s.vsramWrite a w).vsram }

/-! ### Encoding -/

/-- R101 to R107, R114: decoding an encoded well-formed operation gives it back, on every variant that has
it and in the phase it belongs to. -/
def Obligations.DecodeOfEncode : Prop :=
  ∀ (i : Instr) (v : Variant) (pending : Bool),
    i.WellFormed → i.on v = true → i.atPhase pending = true → decode v pending (encode i) = .ok i

/-- R101 to R107, R114: a decoded operation is well formed, the variant's and the phase's own, and encodes to
the access it was read from: no bit of the access is dropped. -/
def Obligations.EncodeOfDecode : Prop :=
  ∀ (a : Access) (v : Variant) (pending : Bool) (i : Instr),
    decode v pending a = .ok i →
      encode i = a ∧ i.WellFormed ∧ i.on v = true ∧ i.atPhase pending = true

/-- R119, and words written out from R104, R105, R106: the decoder reads them as what they stand for. -/
def Obligations.WorkedEncodingsDecode : Prop :=
  decode .v68k false (.write16 .control 0x4100#16 0) = .ok (.ctrlA1 0b01#2 0x0100#14 0) ∧
  decode .v68k true (.write16 .control 0x0000#16 0) = .ok (.ctrlA2 0#8 0#4 0#2 0#2 0) ∧
  decode .v68k false (.write16 .control 0xC000#16 0) = .ok (.ctrlA1 0b11#2 0#14 0) ∧
  decode .v68k false (.write16 .control 0x4000#16 0) = .ok (.ctrlA1 0b01#2 0#14 0) ∧
  decode .v68k true (.write16 .control 0x0010#16 0) = .ok (.ctrlA2 0#8 0b0001#4 0#2 0#2 0) ∧
  decode .v68k false (.write16 .control 0x0100#16 0) = .ok (.ctrlA1 0b00#2 0x0100#14 0) ∧
  decode .v68k false (.write16 .control 0x0000#16 0) = .ok (.ctrlA1 0b00#2 0#14 0) ∧
  decode .v68k true (.write16 .control 0x0020#16 0) = .ok (.ctrlA2 0#8 0b0010#4 0#2 0#2 0) ∧
  decode .v68k true (.write16 .control 0x0083#16 0) = .ok (.ctrlA2 0#8 0b1000#4 0#2 0b11#2 0) ∧
  decode .v68k false (.write16 .control 0x8F02#16 0) = .ok (.ctrlRw 0#1 15#5 0x02#8 0) ∧
  decode .v68k false (.write16 .control 0x8104#16 0) = .ok (.ctrlRw 0#1 1#5 0x04#8 0) ∧
  decode .vz80Sms false (.write8 .control 0x36#8 0) = .ok (.ctrlB1 0x36#8 0) ∧
  decode .vz80Sms true (.write8 .control 0x78#8 0) = .ok (.ctrlB2Addr 0b01#2 0x38#6 0) ∧
  decode .vz80Gg true (.write8 .control 0x80#8 0) = .ok (.ctrlB2Reg 0#6 0) ∧
  decode .vTms true (.write8 .control 0x58#8 0) = .ok (.ctrlT2Addr 1#1 0x18#6 0) ∧
  decode .vTms true (.write8 .control 0x81#8 0) = .ok (.ctrlT2Reg 0#4 1#3 0)

/-- R114: every control and data write of the variant's width, and every read of a port it has, is one
operation, at either value of `pending`. -/
def Obligations.EveryPortAccessDecodes : Prop :=
  (∀ (pending : Bool) (w : Word) (t : Nat),
    (∃ i, decode .v68k pending (.write16 .control w t) = .ok i) ∧
    decode .v68k pending (.write16 .data w t) = .ok (.dataW16 w t) ∧
    decode .v68k pending (.read16 .control t) = .ok (.ctrlR16 t) ∧
    decode .v68k pending (.read16 .data t) = .ok (.dataR16 t) ∧
    decode .v68k pending (.read16 .hv t) = .ok (.hvR16 t)) ∧
  (∀ (v : Variant) (pending : Bool) (b : Byte) (t : Nat), v.isByte = true →
    (∃ i, decode v pending (.write8 .control b t) = .ok i) ∧
    decode v pending (.write8 .data b t) = .ok (.dataW8 b t) ∧
    decode v pending (.read8 .control t) = .ok (.ctrlR8 t) ∧
    decode v pending (.read8 .data t) = .ok (.dataR8 t) ∧
    decode v pending (.read8 .vCounter t) = .ok (.vR8 t) ∧
    decode v pending (.read8 .hCounter t) = .ok (.hR8 t))

/-- R115: the ignored bits of RW, A2 and T2 register writes have no effect (a deferred write keeps them
until it is decoded). -/
def Obligations.IgnoredBitsHaveNoEffect : Prop :=
  ∀ (s : State) (t : Nat), Unfrozen s →
    (∀ ign ign' idx data, exec (.ctrlRw ign idx data t) s = exec (.ctrlRw ign' idx data t) s) ∧
    (∀ hi hi' cd mid mid' a,
      exec (.ctrlA2 hi cd mid a t) s = exec (.ctrlA2 hi' cd mid' a t) s) ∧
    (∀ ign ign' idx, exec (.ctrlT2Reg ign idx t) s = exec (.ctrlT2Reg ign' idx t) s)

/-! ### The step -/

/-- R88, R89, R100, R114, R306: a step takes the next event; an access that decodes to an operation is
that operation run on the state with the event taken, but for one of a stuck CPU (R325, MarkedRunsStop); a
renderer turn changes at most the dirty set; with nothing issued nothing happens. -/
def Obligations.StepRunsTheDecodedOperation : Prop :=
  (∀ (s : State) (a : Access) (rest : List Event) (i : Instr),
    s.inbox = .op a :: rest → ¬ (a.fromCpu = true ∧ s.cpuStuck = true) →
    decode s.cfg.variant s.pending a = .ok i →
    step s = exec i { s with inbox := rest }) ∧
  (∀ (s : State) (rest : List Event) (c : Bool),
    s.faulted = none → s.refused = none → s.inbox = .render c :: rest →
    step s = .next { s with inbox := rest, dirty := if c then [] else s.dirty }) ∧
  (∀ s : State, s.faulted = none → s.refused = none → s.inbox = [] → step s = .next s)

/-- R84, R117, R170, R190, R226, R278, R324, R326: the accesses with no meaning are refused by name, after the
outcomes that come first: a 68000 byte access, a 68000 data access while Mode 5 is off, a counter port of
`VTMS`; Mode 5 is off on every byte variant; and while VBusToVram holds the CPU a 68000 byte access faults as
any access that is no control write does, one to the control port too (log entry 13, the model's choice). -/
def Obligations.AccessesWithoutMeaningAreRefused : Prop :=
  (∀ (s : State) (t : Nat), PortReady s t →
    (∀ (p : Port) (b : Byte) (rest : List Event),
      s.cfg.variant = .v68k → p = .control ∨ p = .data ∨ p = .hv →
      (s.inbox = .op (.write8 p b t) :: rest → step s = .refused .byteAccess68K) ∧
      (s.inbox = .op (.read8 p t) :: rest → step s = .refused .byteAccess68K)) ∧
    (∀ w : Word, s.cfg.variant = .v68k → s.m5 = false →
      exec (.dataW16 w t) s = .refused .data68KMode4 ∧
      exec (.dataR16 t) s = .refused .data68KMode4) ∧
    (s.cfg.variant = .vTms →
      exec (.vR8 t) s = .refused .noCounterPortTMS ∧
      exec (.hR8 t) s = .refused .noCounterPortTMS) ∧
    (s.cfg.variant.isByte = true → s.m5 = false)) ∧
  (∀ (s : State) (t : Nat) (p : Port) (b : Byte) (rest : List Event),
    CpuReady s t → s.dmaType = some .vbusToVram → s.cfg.variant = .v68k →
    (s.inbox = .op (.write8 p b t) :: rest → step s = .fault .accessWhileFrozen) ∧
    (s.inbox = .op (.read8 p t) :: rest → step s = .fault .accessWhileFrozen))

/-! ### Registers and control writes -/

/-- R29, R31, R42, R140 to R143: the whole of `writeRegister`: registers 11 to 23 ignored while `m5 = 0`; else one
register stored, the derived values recomputed, the HV latch released by a clear of register 0 bit 1 in
Mode 5, the FIFO emptied when Mode 5 goes off and its drain clock set when it comes on; and the table of
R42, which the recomputed mode and height follow, and the named fields of R29, on the bits of the registers. -/
def Obligations.WriteRegisterRule : Prop :=
  (∀ (s : State) (i : BitVec 5) (d : Byte) (t : Nat) (n : State), n = s.setReg i d →
    ((11#5 ≤ i ∧ i ≤ 23#5) ∧ s.m5 = false → s.writeRegister i d t = s) ∧
    (¬ ((11#5 ≤ i ∧ i ≤ 23#5) ∧ s.m5 = false) →
      (s.writeRegister i d t).rd i = d ∧
      (∀ j, j ≠ i → (s.writeRegister i d t).rd j = s.rd j) ∧
      s.writeRegister i d t =
        { s with
          reg := n.reg
          renderMode := n.renderModeNow
          displayLines := n.displayLinesNow
          backdropColor := n.backdropNow
          hvLatch := if i = 0#5 ∧ n.m5 = true ∧ d.getLsbD 1 = false then none else s.hvLatch
          fifoCount := if s.m5 = true ∧ n.m5 = false then 0 else s.fifoCount
          fifoLastWrite := if s.m5 = false ∧ n.m5 = true then t else s.fifoLastWrite })) ∧
  (∀ (s : State) (mode5 mode4 : Bool),
    mode5 = (decide (s.cfg.variant = .v68k) && (s.rd 1).getLsbD 2) →
    mode4 = (!mode5 && !decide (s.cfg.variant = .vTms) && (s.rd 0).getLsbD 2) →
    s.m5 = mode5 ∧
    s.m4sel = (s.rd 0).getLsbD 2 ∧
    s.m2 = (!mode5 && (s.rd 0).getLsbD 1) ∧
    s.m1 = (!mode5 && (s.rd 1).getLsbD 4) ∧
    s.m3 = (!mode5 && (s.rd 1).getLsbD 3) ∧
    s.hvLatchEn = (mode5 && (s.rd 0).getLsbD 1) ∧
    s.v30 = (mode5 && (s.rd 1).getLsbD 3) ∧
    s.dmaEn = (mode5 && (s.rd 1).getLsbD 4) ∧
    s.dispEn = (s.rd 1).getLsbD 6 ∧
    s.bigVram = (decide (s.cfg.variant = .vTms) && (s.rd 1).getLsbD 7) ∧
    s.satReg = s.rd 5 ∧
    s.backdropIdx =
      (if mode5 then (s.rd 7).extractLsb' 0 6 else 0b01#2 ++ (s.rd 7).extractLsb' 0 4) ∧
    s.h40 = (mode5 && (s.rd 12).getLsbD 0) ∧
    s.lsm = (if mode5 then (s.rd 12).extractLsb' 1 2 else 0b00#2) ∧
    s.inc = (if mode5 then s.rd 15 else 1#8) ∧
    s.dmaLen = s.rd 20 ++ s.rd 19 ∧
    s.dmaSrcLo = s.rd 22 ++ s.rd 21 ∧
    s.dmaSrcHi = (s.rd 23).extractLsb' 0 7 ∧
    s.dmaKind =
      (if (s.rd 23).extractLsb' 6 2 = 0b10#2 then .vramFill
      else if (s.rd 23).extractLsb' 6 2 = 0b11#2 then .vramCopy else .vbusToVram) ∧
    s.renderModeNow =
      (if mode5 then
        if (s.rd 12).extractLsb' 1 2 = 0b11#2 then .mode5Interlaced else .mode5Progressive
      else if mode4 then .mode4 else .tms) ∧
    s.displayLinesNow =
      (if mode5 then if (s.rd 1).getLsbD 3 then .lines240 else .lines224
      else if mode4 && (s.rd 0).getLsbD 1 && (s.rd 1).getLsbD 4 && !(s.rd 1).getLsbD 3 then .lines224
      else if mode4 && (s.rd 0).getLsbD 1 && (s.rd 1).getLsbD 3 && !(s.rd 1).getLsbD 4 then .lines240
      else .lines192) ∧
    s.backdropNow = cramEntry s.cram
      (if mode5 then (s.rd 7).extractLsb' 0 6 else 0b01#2 ++ (s.rd 7).extractLsb' 0 4))

/-- R131, R134: CTRL_RW writes the register its bits 12:8 name at once; `pending`, `addr` and `code` stay. -/
def Obligations.CtrlRwWritesRegisterAtOnce : Prop :=
  ∀ (s : State) (ign : BitVec 1) (idx : BitVec 5) (data : Byte) (t : Nat),
    PortReady s t → s.cfg.variant = .v68k →
    ∃ n : State, exec (.ctrlRw ign idx data t) s = .next n ∧
      n.rd idx = (if (11#5 ≤ idx ∧ idx ≤ 23#5) ∧ s.m5 = false then s.rd idx else data) ∧
      (∀ j, j ≠ idx → n.rd j = s.rd j) ∧
      n = { (State.writeRegister idx data t { s with lastT := t }) with
            fifoLatency := n.latencyNow, out := ⟨none, t, none⟩ } ∧
      n.pending = s.pending ∧ n.addr = s.addr ∧ n.code = s.code

/-- R132, R134: CTRL_A1 writes address bits 13:0 and code bits 1:0 at once, keeping the others, and sets
`pending`; nothing else changes but the recomputed FIFO latency. -/
def Obligations.CtrlA1LatchesFirstHalf : Prop :=
  ∀ (s : State) (cd : BitVec 2) (a : BitVec 14) (t : Nat),
    PortReady s t → s.cfg.variant = .v68k →
    exec (.ctrlA1 cd a t) s = .next
      { s with
        lastT := t
        addr := s.addr.extractLsb' 14 2 ++ a
        code := s.code.extractLsb' 2 4 ++ cd
        pending := true
        fifoLatency := s.cfg.fifoLatency.pick s.h40
          (decide ((s.code.extractLsb' 2 4 ++ cd).extractLsb' 0 4 = 0x1#4))
        out := ⟨none, t, none⟩ }

/-- R133, R134, R197: CTRL_A2 latches address bits 15:14 and code bits 5:2 and clears `pending`; with code
bit 5, DMA enabled and Mode 5 it triggers a DMA; else a read code prefetches the buffer and advances the
address; else nothing more. -/
def Obligations.CtrlA2CommitsAddress : Prop :=
  ∀ (s : State) (hi : BitVec 8) (cd : BitVec 4) (mid a : BitVec 2) (t : Nat) (n : State),
    PortReady s t → s.cfg.variant = .v68k →
    n = { s with
          lastT := t
          addr := a ++ s.addr.extractLsb' 0 14
          code := cd ++ s.code.extractLsb' 0 2
          pending := false } →
    (n.code.getLsbD 5 = true ∧ s.dmaEn = true ∧ s.m5 = true →
      exec (.ctrlA2 hi cd mid a t) s = .next
        { (n.dmaTrigger State.dmaStep t).1.relatch with
          out := ⟨none, (n.dmaTrigger State.dmaStep t).2, none⟩ }) ∧
    (¬ (n.code.getLsbD 5 = true ∧ s.dmaEn = true ∧ s.m5 = true) →
      n.code.extractLsb' 0 4 ∈ [0x0#4, 0x4#4, 0x8#4, 0xC#4] →
      exec (.ctrlA2 hi cd mid a t) s = .next
        { n with
          readBuf := n.targetValue
          addr := n.addr + s.inc.setWidth 16
          draws := if n.code.extractLsb' 0 4 = 0x0#4 then s.draws else s.draws + 1
          fifoLatency := n.latencyNow
          out := ⟨none, t, none⟩ }) ∧
    (¬ (n.code.getLsbD 5 = true ∧ s.dmaEn = true ∧ s.m5 = true) →
      n.code.extractLsb' 0 4 ∉ [0x0#4, 0x4#4, 0x8#4, 0xC#4] →
      exec (.ctrlA2 hi cd mid a t) s = .next
        { n with fifoLatency := n.latencyNow, out := ⟨none, t, none⟩ })

/-- R111: after A1 then A2 the address and the code are the two latched halves, where the new code neither
starts a DMA nor prefetches (a prefetch advances the address by the increment, R197). -/
def Obligations.TwoPhasesYieldTheAddress : Prop :=
  ∀ (s : State) (c1 : BitVec 2) (a1 : BitVec 14) (hi : BitVec 8) (c2 : BitVec 4)
    (mid a2 : BitVec 2) (t u : Nat),
    PortReady s t → t ≤ u → s.cfg.variant = .v68k →
    ((c2 ++ c1).getLsbD 5 = false ∨ s.dmaEn = false) →
    ∃ n, andThen (exec (.ctrlA1 c1 a1 t) s) (exec (.ctrlA2 hi c2 mid a2 u)) = .next n ∧
      n.code = c2 ++ c1 ∧ n.pending = false ∧
      n.addr = (if isReadCode ((c2 ++ c1).extractLsb' 0 4) then a2 ++ a1 + s.inc.setWidth 16
        else a2 ++ a1)

/-- R260, R263, R264, R285: the request a trigger builds: kind from `reg[23][7:6]`, length from the two
length registers with 0 read as 65536, source by kind; a VramFill waits armed at the caller's clock, the
other kinds run their first step. -/
def Obligations.DmaRequestFromRegisters : Prop :=
  ∀ (s : State) (step : Nat → State → State × Nat) (t L : Nat),
    L = (if s.rd 20 ++ s.rd 19 = 0#16 then 65536 else (s.rd 20 ++ s.rd 19).toNat) →
    ((s.rd 23).extractLsb' 6 2 = 0b00#2 ∨ (s.rd 23).extractLsb' 6 2 = 0b01#2 →
      s.dmaTrigger step t = step t
        { s with
          dmaType := some .vbusToVram
          dmaSource := ((s.rd 23).extractLsb' 0 7).setWidth 24 <<< 17 |||
            (s.rd 22 ++ s.rd 21).setWidth 24 <<< 1
          dmaRemaining := L
          fillArmed := false }) ∧
    ((s.rd 23).extractLsb' 6 2 = 0b10#2 →
      s.dmaTrigger step t =
        ({ s with dmaType := some .vramFill, dmaRemaining := L, fillArmed := true }, t)) ∧
    ((s.rd 23).extractLsb' 6 2 = 0b11#2 →
      s.dmaTrigger step t = step t
        { s with
          dmaType := some .vramCopy
          dmaSource := (s.rd 22 ++ s.rd 21).setWidth 24
          dmaRemaining := L
          fillArmed := false })

/-- R134: after every control write that is not deferred the FIFO latency is that of the mode bits and the
code it leaves. -/
def Obligations.ControlWritesRecomputeLatency : Prop :=
  ∀ (i : Instr) (s n : State), instrIsControlWrite i = true → Unfrozen s → exec i s = .next n →
    n.fifoLatency = n.cfg.fifoLatency.pick n.h40 (decide (n.code.extractLsb' 0 4 = 0x1#4))

/-- R150, R151, R152, R134: the byte address sequence: CTRL_B1 goes to the latch only, `addr` and `code`
wait for the second byte; CTRL_B2_ADDR commits the 14-bit address and the code; code 00 prefetches the byte
at the address and advances it modulo 2^14. -/
def Obligations.ByteAddressSequence : Prop :=
  ∀ (s : State) (t : Nat), PortReady s t →
    (∀ b : Byte, s.cfg.variant.isByte = true →
      exec (.ctrlB1 b t) s = .next
        { s with
          lastT := t, ctrlLatch := b, pending := true, fifoLatency := s.latencyNow
          out := ⟨none, t, none⟩ }) ∧
    (∀ (cd : BitVec 2) (a : BitVec 6) (n : State), s.cfg.variant.isZ80 = true →
      n = { s with
            lastT := t
            addr := (a ++ s.ctrlLatch).setWidth 16
            code := cd.setWidth 6
            pending := false
            fifoLatency := s.cfg.fifoLatency.pick s.h40 (decide (cd = 0b01#2))
            out := ⟨none, t, none⟩ } →
      (cd ≠ 0b00#2 → exec (.ctrlB2Addr cd a t) s = .next n) ∧
      (cd = 0b00#2 → exec (.ctrlB2Addr cd a t) s = .next
        { n with
          readBuf := (s.vram.read (a ++ s.ctrlLatch).toNat).setWidth 16
          addr := BitVec.ofNat 16 (((a ++ s.ctrlLatch).toNat + 1) % 16384) }))

/-- R153 (the index masked to the 32 registers: log entry 15): CTRL_B2_REG commits the address and code 10
and writes the latched byte to the register `v & Z80_REG_MASK`. -/
def Obligations.CtrlB2RegWritesRegister : Prop :=
  ∀ (s : State) (a : BitVec 6) (t : Nat) (n : State),
    PortReady s t → s.cfg.variant.isZ80 = true →
    n = State.writeRegister (((0b10#2 ++ a : Byte) &&& s.cfg.z80RegMask).setWidth 5) s.ctrlLatch t
          { s with
            lastT := t
            addr := (a ++ s.ctrlLatch).setWidth 16
            code := 0b000010#6
            pending := false } →
    exec (.ctrlB2Reg a t) s = .next
      { n with fifoLatency := n.latencyNow, out := ⟨none, t, none⟩ }

/-- R155, R156, R157: the second byte on `VTMS`: an address, un-scrambled while `bigVram = 0`, with
prefetch when it is a read; or a register write that leaves `addr` and `code`. -/
def Obligations.TmsSecondByte : Prop :=
  ∀ (s : State) (t : Nat), PortReady s t → s.cfg.variant = .vTms →
    (∀ (rw : BitVec 1) (a : BitVec 6) (b : BitVec 14) (n : State),
      b = (if (s.rd 1).getLsbD 7 then a ++ s.ctrlLatch else tms4kMap s.cfg (a ++ s.ctrlLatch)) →
      n = { s with
            lastT := t
            addr := b.setWidth 16
            code := rw.setWidth 6
            pending := false
            fifoLatency := s.cfg.fifoLatency.pick s.h40 (decide (rw = 1#1))
            out := ⟨none, t, none⟩ } →
      (rw = 1#1 → exec (.ctrlT2Addr rw a t) s = .next n) ∧
      (rw = 0#1 → exec (.ctrlT2Addr rw a t) s = .next
        { n with
          readBuf := (s.vram.read b.toNat).setWidth 16
          addr := BitVec.ofNat 16 ((b.toNat + 1) % 16384) })) ∧
    (∀ (ign : BitVec 4) (idx : BitVec 3) (n : State),
      n = State.writeRegister (idx.setWidth 5) s.ctrlLatch t
            { s with lastT := t, pending := false } →
      n.addr = s.addr ∧ n.code = s.code ∧ n.pending = false ∧
      exec (.ctrlT2Reg ign idx t) s = .next
        { n with fifoLatency := n.latencyNow, out := ⟨none, t, none⟩ })

/-- R278, R281, R326: while VBusToVram is in flight a control write is kept undecoded in the one slot, a
second one faults, and any other CPU port access faults. -/
def Obligations.FrozenCpuMayOnlyDefer : Prop :=
  ∀ (i : Instr) (s : State), CpuReady s (instrTime i) → s.dmaType = some .vbusToVram →
    (instrIsControlWrite i = true → s.deferredCtrl = none →
      exec i s = .next
        { s with
          lastT := instrTime i
          deferredCtrl := some (instrWord i)
          out := ⟨none, instrTime i, none⟩ }) ∧
    (instrIsControlWrite i = true → s.deferredCtrl ≠ none →
      exec i s = .fault .deferredOverflow) ∧
    (instrFromCpu i = true → instrIsControlWrite i = false →
      exec i s = .fault .accessWhileFrozen)

/-- The frame of the control writes that start no DMA and are not deferred (R131 to R133, R150 to R156): no
byte of a bank, no status bit, no DMA field, no dirty tile changes; a register changes only if the
operation is a register write and names it. -/
def Obligations.ControlWriteFrame : Prop :=
  ∀ (i : Instr) (s n : State), instrIsControlWrite i = true → Unfrozen s → exec i s = .next n →
    (∀ hi cd mid a t, i = .ctrlA2 hi cd mid a t →
      ¬ ((cd ++ s.code.extractLsb' 0 2).getLsbD 5 = true ∧ s.dmaEn = true)) →
    (∀ a, n.vram.read a = s.vram.read a) ∧ (∀ a, n.cram.read a = s.cram.read a) ∧
    (∀ a, n.vsram.read a = s.vsram.read a) ∧ (∀ a, n.sat.read a = s.sat.read a) ∧
    n.dirty = s.dirty ∧ n.status = s.status ∧ n.dmaType = s.dmaType ∧
    n.dmaRemaining = s.dmaRemaining ∧ n.dmaSource = s.dmaSource ∧ n.fillArmed = s.fillArmed ∧
    n.fillByte = s.fillByte ∧ n.dmaEndCycles = s.dmaEndCycles ∧ n.deferredCtrl = s.deferredCtrl ∧
    n.ggLatch = s.ggLatch ∧ n.cfg = s.cfg ∧
    (∀ j, n.rd j ≠ s.rd j →
      (∃ ign data t, i = .ctrlRw ign j data t) ∨
      (∃ a t, i = .ctrlB2Reg a t ∧ j = ((0b10#2 ++ a : Byte) &&& s.cfg.z80RegMask).setWidth 5) ∨
      (∃ ign idx t, i = .ctrlT2Reg ign idx t ∧ j = idx.setWidth 5))

/-! ### Data writes and the FIFO -/

/-- R170, R172, R176: a 68000 data write in Mode 5 clears `pending`, charges the FIFO, goes through the
bus-write path and returns the FIFO's clock, where no fill is armed. -/
def Obligations.DataW16WritesThroughTheBus : Prop :=
  ∀ (s : State) (w : Word) (t : Nat) (p : State × Nat),
    PortReady s t → s.cfg.variant = .v68k → s.m5 = true → s.fillArmed = false →
    p = State.fifoNoteWrite t { s with lastT := t, pending := false } →
    exec (.dataW16 w t) s = .next { p.1.busWrite w with out := ⟨none, p.2, none⟩ } ∧
    (p.1.busWrite w).addr = s.addr + s.inc.setWidth 16 ∧ (p.1.busWrite w).pending = false

/-- R171 to R176: what the bus-write path changes, by the code's target: the two VRAM bytes, the CRAM
entry or the VSRAM word the address selects, or no bank; then the address advances. Every byte outside
those stays, and every register and special register but the address. -/
def Obligations.BusWriteChangesOnlyItsTarget : Prop :=
  ∀ (s : State) (w : Word) (n : State) (colour : Colour), n = s.busWrite w →
    colour = w.extractLsb' 9 3 ++ w.extractLsb' 5 3 ++ w.extractLsb' 1 3 →
    n.addr = s.addr + s.inc.setWidth 16 ∧
    (s.code.extractLsb' 0 4 = 0x1#4 →
      n.vram = (s.vramWordWrite s.addr w).vram ∧ n.dirty = (s.vramWordWrite s.addr w).dirty ∧
      n.sat = (s.vramWordWrite s.addr w).sat) ∧
    (s.code.extractLsb' 0 4 ≠ 0x1#4 → n.vram = s.vram ∧ n.dirty = s.dirty ∧ n.sat = s.sat) ∧
    (∀ j, j ≠ s.addr.toNat / 2 * 2 → j ≠ s.addr.toNat / 2 * 2 + 1 →
      n.vram.read j = s.vram.read j) ∧
    (∀ j, n.cram.read j =
      if s.code.extractLsb' 0 4 = 0x3#4 ∧ j = 2 * (s.addr.toNat / 2 % 64) then
        colour.extractLsb' 0 8
      else if s.code.extractLsb' 0 4 = 0x3#4 ∧ j = 2 * (s.addr.toNat / 2 % 64) + 1 then
        (colour.extractLsb' 8 1).setWidth 8
      else s.cram.read j) ∧
    (∀ k, cramEntry n.cram k =
      if s.code.extractLsb' 0 4 = 0x3#4 ∧ k = s.addr.extractLsb' 1 6 then colour
      else cramEntry s.cram k) ∧
    n.backdropColor =
      (if s.code.extractLsb' 0 4 = 0x3#4 ∧ s.addr.extractLsb' 1 6 = s.backdropIdx then colour
      else s.backdropColor) ∧
    (∀ j, n.vsram.read j =
      if s.code.extractLsb' 0 4 = 0x5#4 ∧ j = 2 * (s.addr.toNat / 2 % 64) then w.extractLsb' 0 8
      else if s.code.extractLsb' 0 4 = 0x5#4 ∧ j = 2 * (s.addr.toNat / 2 % 64) + 1 then
        w.extractLsb' 8 8
      else s.vsram.read j) ∧
    (∀ b : Word, n.vsramRead b =
      if s.code.extractLsb' 0 4 = 0x5#4 ∧ b.toNat / 2 % 64 = s.addr.toNat / 2 % 64 then w
      else s.vsramRead b) ∧
    n = { s with
          addr := n.addr, vram := n.vram, sat := n.sat, dirty := n.dirty, cram := n.cram
          backdropColor := n.backdropColor, vsram := n.vsram }

/-- R280, R326 (what a refusal in the middle leaves: log entry 9): a data write that finds a fill armed is
written normally, then gives the fill its byte and starts it at the caller's clock; with a code that is no
VRAM write it leaves the refusal mark instead. -/
def Obligations.DataWriteStartsArmedFill : Prop :=
  ∀ (s : State) (w : Word) (t : Nat) (p : State × Nat) (b : State),
    PortReady s t → s.cfg.variant = .v68k → s.m5 = true → s.fillArmed = true →
    p = State.fifoNoteWrite t { s with lastT := t, pending := false } →
    b = { p.1.busWrite w with fillByte := w.extractLsb' 8 8, fillArmed := false } →
    (s.code.extractLsb' 0 4 = 0x1#4 →
      exec (.dataW16 w t) s = .next
        { (b.dmaStep p.2).1 with out := ⟨none, (b.dmaStep p.2).2, none⟩ }) ∧
    (s.code.extractLsb' 0 4 ≠ 0x1#4 →
      exec (.dataW16 w t) s = .next
        { b with refused := some .fillNonVram, out := ⟨none, p.2, none⟩ })

/-- R242, R243, R244: how the FIFO retires entries at an update, and how a write charges it: no charge
outside active display; a free slot taken at once, the drain clock started by the first; at capacity one
latency of stall and the count kept at four. -/
def Obligations.FifoUpdateAndCharge : Prop :=
  ∀ (s u : State) (t : Nat), u = s.fifoUpdate t →
    (s.m5 = false ∨ s.fifoCount = 0 ∨ t ≤ s.fifoLastWrite → u = s) ∧
    (s.m5 = true → s.fifoCount ≠ 0 → s.fifoLastWrite < t →
      u = { s with
            fifoCount := s.fifoCount - min s.fifoCount ((t - s.fifoLastWrite) / s.fifoLatency)
            fifoLastWrite := s.fifoLastWrite +
              min s.fifoCount ((t - s.fifoLastWrite) / s.fifoLatency) * s.fifoLatency }) ∧
    (s.m5 = false ∨ s.status.getLsbD 3 = true ∨ s.dispEn = false →
      s.fifoNoteWrite t = (s, t)) ∧
    (s.m5 = true → s.status.getLsbD 3 = false → s.dispEn = true →
      (u.fifoCount < 4 →
        s.fifoNoteWrite t =
          ({ u with
             fifoCount := u.fifoCount + 1
             fifoLastWrite := if u.fifoCount = 0 then t else u.fifoLastWrite }, t)) ∧
      (¬ u.fifoCount < 4 →
        s.fifoNoteWrite t =
          ({ u with fifoLastWrite := u.fifoLastWrite + s.fifoLatency }, t + s.fifoLatency)))

/-- R247: five data writes at one time in Mode 5 during active display, from an empty FIFO and with no fill
armed: the first four return the time they came at, the fifth one FIFO latency more. -/
def Obligations.FifthWriteStallsOneLatency : Prop :=
  ∀ (s : State) (t : Nat) (w1 w2 w3 w4 w5 : Word),
    PortReady s t → s.cfg.variant = .v68k → s.m5 = true → s.fillArmed = false →
    s.status.getLsbD 3 = false → s.dispEn = true → s.fifoCount = 0 →
    ∃ s1 s2 s3 s4 s5 : State,
      exec (.dataW16 w1 t) s = .next s1 ∧ exec (.dataW16 w2 t) s1 = .next s2 ∧
      exec (.dataW16 w3 t) s2 = .next s3 ∧ exec (.dataW16 w4 t) s3 = .next s4 ∧
      exec (.dataW16 w5 t) s4 = .next s5 ∧
      s1.out.clock = t ∧ s2.out.clock = t ∧ s3.out.clock = t ∧ s4.out.clock = t ∧
      s4.fifoCount = 4 ∧ s5.out.clock = t + s.fifoLatency ∧ s5.fifoCount = 4

/-- R180, R181, R183, R184, R185: byte data writes: VRAM, or CRAM by the variant's colour, the Game Gear's
pair at its odd byte; the byte goes to the buffer, the address advances modulo 2^14, the clock is the
caller's. -/
def Obligations.ByteDataWrites : Prop :=
  ∀ (s : State) (v : Byte) (t : Nat) (n : State),
    PortReady s t → s.cfg.variant.isByte = true →
    n = { s with
          lastT := t
          pending := false
          readBuf := v.setWidth 16
          addr := BitVec.ofNat 16 ((s.addr.toNat + 1) % 16384)
          out := ⟨none, t, none⟩ } →
    (s.cfg.variant = .vTms ∨ s.code.extractLsb' 0 2 ≠ 0b11#2 →
      exec (.dataW8 v t) s = .next
        { n with
          vram := (s.vramPut s.addr v).vram
          dirty := (s.vramPut s.addr v).dirty
          sat := (s.vramPut s.addr v).sat }) ∧
    (s.cfg.variant = .vz80Sms ∨ s.cfg.variant = .vz80Md4 → s.code.extractLsb' 0 2 = 0b11#2 →
      ∃ m : State,
        m = s.cramWrite (BitVec.ofNat 6 (s.addr.toNat % 32))
          (v.extractLsb' 4 2 ++ 0#1 ++ v.extractLsb' 2 2 ++ 0#1 ++ v.extractLsb' 0 2 ++ 0#1) ∧
        exec (.dataW8 v t) s = .next
          { n with cram := m.cram, backdropColor := m.backdropColor }) ∧
    (s.cfg.variant = .vz80Gg → s.code.extractLsb' 0 2 = 0b11#2 → s.addr.getLsbD 0 = false →
      exec (.dataW8 v t) s = .next { n with ggLatch := v }) ∧
    (s.cfg.variant = .vz80Gg → s.code.extractLsb' 0 2 = 0b11#2 → s.addr.getLsbD 0 = true →
      ∃ m : State,
        m = s.cramWrite (BitVec.ofNat 6 (s.addr.toNat / 2 % 32))
          (v.extractLsb' 1 3 ++ s.ggLatch.extractLsb' 5 3 ++ s.ggLatch.extractLsb' 1 3) ∧
        exec (.dataW8 v t) s = .next
          { n with cram := m.cram, backdropColor := m.backdropColor })

/-! ### Data reads -/

/-- R190: a 68000 data read at a read code returns the buffer, refills it from the target and advances the
address; `pending` is cleared; nothing else changes. -/
def Obligations.DataR16IsBuffered : Prop :=
  ∀ (s : State) (t : Nat), PortReady s t → s.cfg.variant = .v68k → s.m5 = true →
    s.code.extractLsb' 0 4 ∈ [0x0#4, 0x4#4, 0x8#4, 0xC#4] →
    exec (.dataR16 t) s = .next
      { s with
        lastT := t
        pending := false
        readBuf := s.targetValue
        addr := s.addr + s.inc.setWidth 16
        draws := if s.code.extractLsb' 0 4 = 0x0#4 then s.draws else s.draws + 1
        out := ⟨some s.readBuf, t, none⟩ }

/-- R72, R192 to R195: what a target gives at each read code, the bits that are a draw taken from any word. That
a prefetch reads the VSRAM word while `m5 = 0` too is log entry 23, the model's choice between R74 and R133,
R135, R193, R197; what stays of R74: while `m5 = 0` no port access changes VSRAM or returns anything of it. -/
def Obligations.ReadTargetValues : Prop :=
  (∀ (i : Instr) (s n : State), instrFromCpu i = true → s.m5 = false → exec i s = .next n →
    n.vsram = s.vsram ∧
    ∀ (m : Memory) (n' : State), exec i { s with vsram := m } = .next n' → n'.out = n.out) ∧
  ∀ s : State,
    (s.code.extractLsb' 0 4 = 0x0#4 →
      s.targetValue =
        s.vram.read (s.addr.toNat / 2 * 2 + 1) ++ s.vram.read (s.addr.toNat / 2 * 2)) ∧
    (s.code.extractLsb' 0 4 = 0x4#4 →
      ∃ d : Word, s.targetValue = (s.vsramRead s.addr &&& 0x07FF#16) ||| (d &&& 0xF800#16)) ∧
    (s.code.extractLsb' 0 4 = 0x8#4 →
      ∃ (d : Word) (e : Colour), e = cramEntry s.cram (s.addr.extractLsb' 1 6) ∧
        s.targetValue =
          ((e.extractLsb' 6 3).setWidth 16 <<< 9 ||| (e.extractLsb' 3 3).setWidth 16 <<< 5 |||
            (e.extractLsb' 0 3).setWidth 16 <<< 1) ||| (d &&& 0xF111#16)) ∧
    (s.code.extractLsb' 0 4 = 0xC#4 →
      ∃ d : Word,
        s.targetValue = (d &&& 0xFF00#16) |||
          (s.vram.read
            (if s.cfg.variant = .v68k then s.addr ^^^ 1#16 else s.addr).toNat).setWidth 16)

/-- R196, R325: a read at any other code has one of the two admitted outcomes: it completes with a free
value in the buffer, or the CPU is stuck with the buffer and the address as they were (log entry 6). -/
def Obligations.InvalidReadDrawsOrSticks : Prop :=
  ∀ (s : State) (t : Nat), PortReady s t → s.cfg.variant = .v68k → s.m5 = true →
    s.code.extractLsb' 0 4 ∉ [0x0#4, 0x4#4, 0x8#4, 0xC#4] →
    (∃ v, exec (.dataR16 t) s = .next
      { s with
        lastT := t
        pending := false
        readBuf := v
        addr := s.addr + s.inc.setWidth 16
        draws := s.draws + 1
        out := ⟨some s.readBuf, t, none⟩ }) ∨
    exec (.dataR16 t) s = .next
      { s with
        lastT := t
        pending := false
        cpuStuck := true
        draws := s.draws + 1
        out := ⟨none, t, none⟩ }

/-- R198: a byte data read returns the buffer's low byte whatever the code, refills it from VRAM and
advances the address modulo 2^14. -/
def Obligations.DataR8IsBuffered : Prop :=
  ∀ (s : State) (t : Nat), PortReady s t → s.cfg.variant.isByte = true →
    exec (.dataR8 t) s = .next
      { s with
        lastT := t
        pending := false
        readBuf := (s.vram.read s.addr.toNat).setWidth 16
        addr := BitVec.ofNat 16 ((s.addr.toNat + 1) % 16384)
        out := ⟨some ((s.readBuf.extractLsb' 0 8).setWidth 16), t, none⟩ }

/-- The frame of the reads (R87, R190, R198, R210, R211, R220, R226, R227): no register, no byte of a bank,
no DMA field, no code, no latch of HV changes; HV and counter reads change nothing but the kept timestamp
and what they return. -/
def Obligations.ReadFrame : Prop :=
  ∀ (i : Instr) (t : Nat) (s n : State),
    i ∈ [.dataR16 t, .dataR8 t, .ctrlR16 t, .ctrlR8 t, .hvR16 t, .vR8 t, .hR8 t] →
    exec i s = .next n →
    n.reg = s.reg ∧ (∀ a, n.vram.read a = s.vram.read a) ∧ (∀ a, n.cram.read a = s.cram.read a) ∧
    (∀ a, n.vsram.read a = s.vsram.read a) ∧ (∀ a, n.sat.read a = s.sat.read a) ∧
    n.dirty = s.dirty ∧ n.code = s.code ∧ n.ctrlLatch = s.ctrlLatch ∧ n.ggLatch = s.ggLatch ∧
    n.fifoLatency = s.fifoLatency ∧ n.dmaType = s.dmaType ∧ n.dmaRemaining = s.dmaRemaining ∧
    n.dmaSource = s.dmaSource ∧ n.fillArmed = s.fillArmed ∧ n.fillByte = s.fillByte ∧
    n.dmaEndCycles = s.dmaEndCycles ∧ n.deferredCtrl = s.deferredCtrl ∧ n.hvLatch = s.hvLatch ∧
    n.renderMode = s.renderMode ∧ n.displayLines = s.displayLines ∧
    n.backdropColor = s.backdropColor ∧
    (i ∈ [.ctrlR16 t, .ctrlR8 t] → n.addr = s.addr ∧ n.readBuf = s.readBuf) ∧
    (i ∈ [.dataR16 t, .dataR8 t] → n.status = s.status ∧ n.fifoCount = s.fifoCount) ∧
    (i ∈ [.hvR16 t, .vR8 t, .hR8 t] → n = { s with lastT := n.lastT, out := n.out })

/-! ### Status reads -/

/-- R210, R212, R242, R279: CTRL_R16 returns the status composed after the FIFO and busy updates, its bits
15:10 a draw, then clears `pending` and bits 5, 6, 7; bits 1 to 4 stay but for the busy update. -/
def Obligations.CtrlR16ReadsAndClears : Prop :=
  ∀ (s u : State) (t : Nat), PortReady s t → s.cfg.variant = .v68k →
    u = State.dmaBusyUpdate t (State.fifoUpdate t { s with lastT := t }) →
    ∃ d : Word,
      exec (.ctrlR16 t) s = .next
        { u with
          pending := false
          status := u.status &&& 0xFF1F#16
          draws := s.draws + 1
          out := ⟨some (u.statusValue ||| (d &&& 0xFC00#16)), t, none⟩ } ∧
      (∀ k, k < 5 → k ≠ 1 → (u.status &&& 0xFF1F#16).getLsbD k = s.status.getLsbD k)

/-- R211, R212: CTRL_R8 returns status bits 7, 6, 5, its bits 4:0 a draw, then clears `pending` and those
bits (the FIFO and busy updates before it: log entry 19). -/
def Obligations.CtrlR8ReadsAndClears : Prop :=
  ∀ (s u : State) (t : Nat), PortReady s t → s.cfg.variant.isByte = true →
    u = State.dmaBusyUpdate t (State.fifoUpdate t { s with lastT := t }) →
    ∃ d : Word,
      exec (.ctrlR8 t) s = .next
        { u with
          pending := false
          status := u.status &&& 0xFF1F#16
          draws := s.draws + 1
          out := ⟨some ((s.status &&& 0x00E0#16) ||| (d &&& 0x001F#16)), t, none⟩ }

/-- R33, R47, R279: the bits of the composed status value; and the busy update of a status read: DMA busy is
cleared at or after the step's end with no request in flight, and only then, no other bit changes. -/
def Obligations.StatusValueAndBusyUpdate : Prop :=
  ∀ (s : State) (t : Nat),
    (s.statusValue.getLsbD 0 = s.cfg.pal ∧
      (∀ k, 1 ≤ k → k ≤ 7 → s.statusValue.getLsbD k = s.status.getLsbD k) ∧
      s.statusValue.getLsbD 8 = (s.m5 && decide (s.fifoCount = 4)) ∧
      s.statusValue.getLsbD 9 = (!s.m5 || decide (s.fifoCount = 0)) ∧
      (∀ k, 10 ≤ k → s.statusValue.getLsbD k = false)) ∧
    (s.dmaBusyUpdate t).status.getLsbD 1 =
      (s.status.getLsbD 1 && !(decide (s.dmaType = none) && decide (s.dmaEndCycles ≤ t))) ∧
    (∀ k, k ≠ 1 → (s.dmaBusyUpdate t).status.getLsbD k = s.status.getLsbD k) ∧
    s.dmaBusyUpdate t = { s with status := (s.dmaBusyUpdate t).status }

/-- R214: no CPU port access changes status bits 2, 3, 4; only RASTER (and a restored snapshot) sets bits
5, 6, 7; beside those only status reads and RESET clear them. -/
def Obligations.OnlyRasterSetsTimingBits : Prop :=
  ∀ (i : Instr) (s n : State), exec i s = .next n →
    (instrFromCpu i = true → n.status &&& 0x001C#16 = s.status &&& 0x001C#16) ∧
    ((∀ a b t, i ≠ .raster a b t) → (∀ x t, i ≠ .deserialize x t) →
      n.status &&& 0x00E0#16 &&& ~~~s.status = 0#16) ∧
    ((∀ a b t, i ≠ .raster a b t) → (∀ x t, i ≠ .deserialize x t) → (∀ t, i ≠ .reset t) →
      (∀ t, i ≠ .ctrlR16 t) → (∀ t, i ≠ .ctrlR8 t) →
      n.status &&& 0x00E0#16 = s.status &&& 0x00E0#16)

/-! ### The HV counter -/

/-- R220, R226, R227: HV and counter reads: the live pair; a latched pair whole in Mode 5 and its
horizontal half in Mode 4; the byte ports, the horizontal one latched; no state changes. On `VTMS` the
counter ports are refused. -/
def Obligations.CounterReads : Prop :=
  ∀ (s : State) (t : Nat) (v h : Byte), PortReady s t →
    v = (s.vCount t).extractLsb' 0 8 → h = hcTable s.cfg s.h40 (t % s.cfg.cyclesPerLine) →
    (s.cfg.variant = .v68k → s.hvLatch = none →
      exec (.hvR16 t) s = .next { s with lastT := t, out := ⟨some (v ++ h), t, none⟩ }) ∧
    (∀ l, s.cfg.variant = .v68k → s.hvLatch = some l → s.m5 = true →
      exec (.hvR16 t) s = .next { s with lastT := t, out := ⟨some l, t, none⟩ }) ∧
    (∀ l, s.cfg.variant = .v68k → s.hvLatch = some l → s.m5 = false →
      exec (.hvR16 t) s = .next
        { s with lastT := t, out := ⟨some (v ++ l.extractLsb' 0 8), t, none⟩ }) ∧
    (s.cfg.variant.isZ80 = true →
      exec (.vR8 t) s = .next { s with lastT := t, out := ⟨some (v.setWidth 16), t, none⟩ }) ∧
    (s.cfg.variant.isZ80 = true → s.hvLatch = none →
      exec (.hR8 t) s = .next { s with lastT := t, out := ⟨some (h.setWidth 16), t, none⟩ }) ∧
    (∀ l, s.cfg.variant.isZ80 = true → s.hvLatch = some l →
      exec (.hR8 t) s = .next
        { s with lastT := t, out := ⟨some ((l.extractLsb' 0 8).setWidth 16), t, none⟩ }) ∧
    (s.cfg.variant = .vTms →
      exec (.vR8 t) s = .refused .noCounterPortTMS ∧ exec (.hR8 t) s = .refused .noCounterPortTMS)

/-- R225: LATCH_HV freezes the live pair in Mode 4, and in Mode 5 while the latch is enabled; otherwise it
is ignored. -/
def Obligations.LatchHvFreezesLivePair : Prop :=
  ∀ (s : State) (t : Nat), HostReady s t →
    (s.m5 = false ∨ (s.rd 0).getLsbD 1 = true →
      exec (.latchHv t) s = .next
        { s with
          lastT := t
          hvLatch := some ((s.vCount t).extractLsb' 0 8 ++
            hcTable s.cfg s.h40 (t % s.cfg.cyclesPerLine))
          out := ⟨none, t, none⟩ }) ∧
    (s.m5 = true → (s.rd 0).getLsbD 1 = false →
      exec (.latchHv t) s = .next { s with lastT := t, out := ⟨none, t, none⟩ })

/-- R221, R222: the vertical count of every instance: the line less one, modulo the lines of a frame, less
those lines where it exceeds the overflow constant, as 9 bits; interlaced, shifted left by the interlace flag
with bit 0 replaced by bit 8 of what that gives. With 262 lines and the constant 0xEA the byte runs 0xFF, then
0x00 to 0xEA, then 0xE5 to 0xFE over the lines of a frame. -/
def Obligations.VerticalByteOverAFrame : Prop :=
  ∀ (s : State) (t lines line limit k : Nat) (count : BitVec 9),
    0 < s.cfg.cyclesPerLine → 0 < lines → lines = s.cfg.linesPerFrame →
    limit = vcMax s.cfg s.renderMode s.displayLines →
    line = t % (s.cfg.cyclesPerLine * lines) / s.cfg.cyclesPerLine →
    k = (line + lines - 1) % lines →
    count = BitVec.ofInt 9 (if limit < k then (k : Int) - (lines : Int) else (k : Int)) →
    line < lines ∧
    (s.lsm.getLsbD 0 = false → s.vCount t = count) ∧
    (s.lsm = 0b01#2 → s.vCount t = count.extractLsb' 1 8 ++ count.extractLsb' 8 1) ∧
    (s.lsm = 0b11#2 → s.vCount t = count.extractLsb' 0 8 ++ count.extractLsb' 7 1) ∧
    (lines = 262 → limit = 0xEA →
      count = BitVec.ofNat 9
        (if line = 0 then 511 else if line ≤ 235 then line - 1 else line + 249) ∧
      (s.lsm.getLsbD 0 = false →
        (s.vCount t).extractLsb' 0 8 =
          BitVec.ofNat 8 (if line = 0 then 0xFF else if line ≤ 235 then line - 1 else line - 7)) ∧
      (s.lsm = 0b01#2 →
        (s.vCount t).extractLsb' 0 8 = count.extractLsb' 1 7 ++ count.extractLsb' 8 1) ∧
      (s.lsm = 0b11#2 →
        (s.vCount t).extractLsb' 0 8 = count.extractLsb' 0 7 ++ count.extractLsb' 7 1))

/-! ### DMA -/

/-- R283: ADVANCE with no DMA in flight is a contract violation; an armed fill waits; else one step runs
and the frozen or unchanged clock is given back. -/
def Obligations.AdvanceRunsOneStep : Prop :=
  ∀ (s : State) (t : Nat), HostReady s t →
    (s.dmaType = none → exec (.advance t) s = .fault .advanceWithoutDma) ∧
    (s.dmaType ≠ none → s.fillArmed = true →
      exec (.advance t) s = .next { s with lastT := t, out := ⟨none, t, none⟩ }) ∧
    (s.dmaType ≠ none → s.fillArmed = false →
      exec (.advance t) s = .next
        { (State.dmaStep t { s with lastT := t }).1 with
          out := ⟨none, (State.dmaStep t { s with lastT := t }).2, none⟩ })

/-- R265, R267, R268, R273, R274, R276, R277, R282: the whole of a DMA step. The window of VBlank by R268's
default where the instance takes it; the units and cycles of the budget, clamped to what remains; the clock of a freezing step; the busy bit and end of a concurrent one; the units
run one after another and nothing else changed; at length 0 both length registers zeroed, the source
registers written back where the instance does so, the request destroyed. Then a deferred control write is
run as the ordinary control write it decodes to, at the end of the step; it moves neither the kept timestamp
nor the step's clock (log entry 11, the model's choice). That the registers are written at length 0 while
`m5 = 0` too, where R46 has them unchanged, is log entry 24, the model's choice. -/
def Obligations.DmaStepAccounting : Prop :=
  ∀ (s u : State) (t rate window room units cycles : Nat) (k : DmaKind),
    s.dmaType = some k →
    rate = (if k = .vbusToVram then
        s.cfg.dmaRate.pick (s.status.getLsbD 3 || !s.dispEn) s.h40 / 2
      else s.cfg.dmaRate.pick (s.status.getLsbD 3 || !s.dispEn) s.h40) →
    window = (if s.status.getLsbD 3 then vblankRemaining s.cfg t
      else s.cfg.cyclesPerLine - t % s.cfg.cyclesPerLine) →
    room = window * rate / s.cfg.cyclesPerLine →
    units = min s.dmaRemaining room →
    cycles = (if s.dmaRemaining < room then units * s.cfg.cyclesPerLine / rate else window) →
    u = State.dmaUnits units
      { s with
        dmaRemaining := s.dmaRemaining - units
        status := if k = .vbusToVram then s.status else s.status ||| 0x0002#16
        dmaEndCycles := if k = .vbusToVram then s.dmaEndCycles else t + cycles } →
    (s.cfg.vblankByFrame = true →
      vblankRemaining s.cfg t =
        s.cfg.cyclesPerLine * s.cfg.linesPerFrame -
          t % (s.cfg.cyclesPerLine * s.cfg.linesPerFrame)) ∧
    (s.deferredCtrl = none → ∃ n : State,
      s.dmaStep t = (n, if k = .vbusToVram then t + cycles else t) ∧
      (units < s.dmaRemaining → n = u) ∧
      (s.dmaRemaining ≤ units →
        n = { u with reg := n.reg, dmaType := none, fillArmed := false } ∧
        ∀ j, n.rd j =
          if j = 19#5 ∨ j = 20#5 then 0#8
          else if s.cfg.dmaSourceWriteback = true ∧ k = .vbusToVram ∧ j = 21#5 then
            u.dmaSource.extractLsb' 1 8
          else if s.cfg.dmaSourceWriteback = true ∧ k = .vbusToVram ∧ j = 22#5 then
            u.dmaSource.extractLsb' 9 8
          else if s.cfg.dmaSourceWriteback = true ∧ k = .vramCopy ∧ j = 21#5 then
            u.dmaSource.extractLsb' 0 8
          else if s.cfg.dmaSourceWriteback = true ∧ k = .vramCopy ∧ j = 22#5 then
            u.dmaSource.extractLsb' 8 8
          else s.rd j)) ∧
    (∀ (v : Word) (m : State) (c : Nat) (i : Instr),
      s.deferredCtrl = some v → (m, c) = State.dmaStep t { s with deferredCtrl := none } →
      (units < s.dmaRemaining → s.dmaStep t = ({ m with deferredCtrl := some v }, c)) ∧
      (s.dmaRemaining ≤ units → HostReady s t →
        decode s.cfg.variant s.pending
          (if s.cfg.variant = .v68k then .write16 .control v (t + cycles)
          else .write8 .control (v.extractLsb' 0 8) (t + cycles)) = .ok i →
        ∃ r : State, exec i { m with cpuStuck := false } = .next r ∧
          s.dmaStep t =
            ({ r with lastT := s.lastT, cpuStuck := s.cpuStuck, out := s.out }, c)))

/-- R75, R76, R271: a run of fill units writes the fill byte at the addresses `addr + k * inc`, each with bit 0
flipped, marks the tiles where it changes a byte, mirrors it into the SAT shadow where the logical address is
in range, leaves the address at the next one, and changes nothing else. -/
def Obligations.FillWritesItsAddresses : Prop :=
  ∀ (n : Nat) (s f : State) (idx : Nat → Word) (l : Nat → Nat) (base : Nat),
    s.dmaType = some .vramFill → f = s.dmaUnits n →
    (∀ k, idx k = (s.addr + BitVec.ofNat 16 (k * s.inc.toNat)) ^^^ 1#16) →
    (∀ k, l k = (s.logIdx (idx k)).toNat) → base = s.satRange.1.toNat →
    f.addr = s.addr + BitVec.ofNat 16 (n * s.inc.toNat) ∧
    (∀ k, k < n → f.vram.read (idx k).toNat = s.fillByte) ∧
    (∀ j, (∀ k, k < n → j ≠ (idx k).toNat) → f.vram.read j = s.vram.read j) ∧
    (∀ tile, tile ∈ f.dirty ↔ tile ∈ s.dirty ∨
      ∃ k, k < n ∧ tile = (idx k).toNat / 32 ∧ s.vram.read (idx k).toNat ≠ s.fillByte) ∧
    (∀ k, k < n → base ≤ l k → l k < base + s.satRange.2 → f.sat.read (l k - base) = s.fillByte) ∧
    (∀ j, (∀ k, k < n → ¬ (base ≤ l k ∧ l k < base + s.satRange.2 ∧ j = l k - base)) →
      f.sat.read j = s.sat.read j) ∧
    f = { s with addr := f.addr, vram := f.vram, dirty := f.dirty, sat := f.sat }

/-- R75, R76, R82, R86, R270, R271, R272: what a unit of each kind does: VBusToVram puts the word the bus gives
at its source through the bus-write path, VramFill puts its byte and VramCopy the logical byte its source
names where the address names, with the tile and the SAT shadow of a VRAM write and no other bank; and what a
run of units moves: the address by the increment each, no VRAM byte outside the words so addressed,
VBusToVram's source two bytes a unit inside its 128 KB window, VramCopy's one byte modulo 2^16. -/
def Obligations.DmaUnitsMoveTheirCursors : Prop :=
  (∀ s : State, s.dmaType = some .vbusToVram →
    s.dmaUnit =
      { State.busWrite { s with draws := s.draws + 1 } (s.busRead s.dmaSource) with
        dmaSource := BitVec.ofNat 24
          (s.dmaSource.toNat / 131072 * 131072 + (s.dmaSource.toNat + 2) % 131072) }) ∧
  (∀ s : State, s.dmaType = some .vramFill →
    s.dmaUnit =
      { s.vramPut (s.addr ^^^ 1#16) s.fillByte with addr := s.addr + s.inc.setWidth 16 }) ∧
  (∀ (s : State) (b : Byte) (l base : Nat), s.dmaType = some .vramCopy →
    b = s.vram.read (s.dmaSource.extractLsb' 0 16 ^^^ 1#16).toNat →
    l = (s.logIdx (s.addr ^^^ 1#16)).toNat → base = s.satRange.1.toNat →
    (∀ j, s.dmaUnit.vram.read j =
      if j = (s.addr ^^^ 1#16).toNat then b else s.vram.read j) ∧
    (∀ tile, tile ∈ s.dmaUnit.dirty ↔ tile ∈ s.dirty ∨
      (tile = s.addr.toNat / 32 ∧ s.vram.read (s.addr ^^^ 1#16).toNat ≠ b)) ∧
    (∀ j, s.dmaUnit.sat.read j =
      if base ≤ l ∧ l < base + s.satRange.2 ∧ j = l - base then b else s.sat.read j) ∧
    s.dmaUnit =
      { s with
        vram := s.dmaUnit.vram
        dirty := s.dmaUnit.dirty
        sat := s.dmaUnit.sat
        addr := s.addr + s.inc.setWidth 16
        dmaSource := (s.dmaSource.extractLsb' 0 16 + 1#16).setWidth 24 }) ∧
  (∀ (n : Nat) (s : State), s.dmaType ≠ none →
    s.dmaUnits (n + 1) = (s.dmaUnits n).dmaUnit ∧
    (s.dmaUnits n).addr = s.addr + BitVec.ofNat 16 (n * s.inc.toNat) ∧
    (∀ j, (∀ k, k < n → j / 2 ≠ (s.addr + BitVec.ofNat 16 (k * s.inc.toNat)).toNat / 2) →
      (s.dmaUnits n).vram.read j = s.vram.read j) ∧
    (s.dmaType ≠ some .vbusToVram →
      (s.dmaUnits n).cram = s.cram ∧ (s.dmaUnits n).vsram = s.vsram) ∧
    (s.dmaType = some .vbusToVram →
      (s.dmaUnits n).dmaSource.toNat =
        s.dmaSource.toNat / 131072 * 131072 + (s.dmaSource.toNat + 2 * n) % 131072) ∧
    (s.dmaType = some .vramCopy → s.dmaSource.toNat < 65536 →
      (s.dmaUnits n).dmaSource.toNat = (s.dmaSource.toNat + n) % 65536))

/-- R284: a request advanced once at the start of each line of active display, with no control write
deferred, has transferred its whole length after the lines its rate needs: no units remain, no request is
in flight, both length registers are cleared (while `m5 = 0` too: log entry 24, the model's choice). -/
def Obligations.LineByLineDmaEnds : Prop :=
  ∀ (n t : Nat) (s : State),
    s.cfg.ok = true → HostReady s t → s.dmaType ≠ none → s.fillArmed = false →
    s.deferredCtrl = none → s.status.getLsbD 3 = false → t % s.cfg.cyclesPerLine = 0 →
    0 < n → (n - 1) * s.dmaRateNow < s.dmaRemaining → s.dmaRemaining ≤ n * s.dmaRateNow →
    ∃ m, advanceLines n t s = .next m ∧ m.dmaRemaining = 0 ∧ m.dmaType = none ∧
      m.rd 19 = 0#8 ∧ m.rd 20 = 0#8

/-! ### Host operations -/

/-- R307: RASTER sets and clears bits 2 to 7 of the stored status word and no others; nothing else changes. -/
def Obligations.RasterSetsTimingBits : Prop :=
  ∀ (s : State) (setMask clearMask : Byte) (t : Nat), HostReady s t →
    ∃ w : Word,
      (∀ k, w.getLsbD k =
        if 2 ≤ k ∧ k ≤ 7 then
          setMask.getLsbD k || (s.status.getLsbD k && !clearMask.getLsbD k)
        else s.status.getLsbD k) ∧
      exec (.raster setMask clearMask t) s = .next
        { s with lastT := t, status := w, out := ⟨none, t, none⟩ }

/-- R303, R304, R305: SERIALIZE changes no state and gives back the captured fields; DESERIALIZE replaces
every captured field and rebuilds the caches, the latency, the SAT shadow and the dirty set, leaving the
configuration (the timestamp kept by both: log entry 10). -/
def Obligations.SaveStateOperations : Prop :=
  ∀ (s : State) (t : Nat), HostReady s t →
    exec (.serialize t) s = .next
      { s with lastT := t, out := ⟨none, t, some (State.capture { s with lastT := t })⟩ } ∧
    (∀ x : Snapshot, ∃ n : State, exec (.deserialize x t) s = .next n ∧
      n.capture = x ∧ CacheForm n ∧ n.fifoLatency = n.latencyNow ∧
      (∀ k, k ∈ n.dirty ↔ k < 2048) ∧
      (x.form = true → ∀ j, j < n.satRange.2 → n.satRange.1.toNat + j < 65536 →
        n.sat.read j =
          n.vram.read (n.logIdx (BitVec.ofNat 16 (n.satRange.1.toNat + j))).toNat) ∧
      n.cfg = s.cfg ∧ n.faulted = none ∧ n.refused = none ∧ n.cpuStuck = s.cpuStuck ∧
      n.inbox = s.inbox ∧ n.draws = s.draws ∧ n.out = ⟨none, t, none⟩)

/-- R305, the round trip: a snapshot restored into another core of the same configuration gives identical
memory bytes and, under equal draws, identical results of every later sequence of status reads. -/
def Obligations.SnapshotRoundTrip : Prop :=
  ∀ (s s0 : State) (t : Nat),
    s0.cfg = s.cfg → HostReady s0 t → s0.cpuStuck = false →
    s.faulted = none → s.refused = none → s.cpuStuck = false → s.fifoLatency = s.latencyNow →
    ∃ n, exec (.deserialize s.capture t) s0 = .next n ∧
      n.vram = s.vram ∧ n.cram = s.cram ∧ n.vsram = s.vsram ∧ n.reg = s.reg ∧
      (∀ ts, statusReads .ctrlR16 ts { n with draws := s.draws } = statusReads .ctrlR16 ts s) ∧
      (∀ ts, statusReads .ctrlR8 ts { n with draws := s.draws } = statusReads .ctrlR8 ts s)

/-! ### Faults -/

/-- R301, R326: an operation whose timestamp is below the last one faults whatever it is; one that gives a
next state keeps its timestamp. The model's choices: the operation of a stuck CPU is not looked at (log entry
7), DESERIALIZE then restores the snapshot's timestamp (log entry 10), a replayed control write moves none
(log entry 11). -/
def Obligations.TimeNeverRunsBack : Prop :=
  ∀ (i : Instr) (s : State), s.faulted = none → s.refused = none →
    (instrTime i < s.lastT → (instrFromCpu i = true → s.cpuStuck = false) →
      exec i s = .fault .timeReversal) ∧
    (∀ n, exec i s = .next n → s.lastT ≤ instrTime i ∧
      (n.lastT = instrTime i ∨ ∃ x t, i = .deserialize x t ∧ n.lastT = x.lastT))

/-- R301, R322, R325: the state a fault leaves is the same but for the mark, the timestamp kept where the
operation passed R301's check before it (log entry 25, DEDUCED), and likewise that of a refusal; no operation of any agent goes on from it, RESET and DESERIALIZE included, and no step, whatever
comes next; a refusal mark answers every operation and every step (log entry 8, the
model's choice). A stuck CPU has no further step and the run is not final: the step passes its accesses over, and the
host's operations go on as before, RESET leaving it stuck; an operation asked of it ends in a fault of the
model's own (log entry 7, the model's choice). -/
def Obligations.MarkedRunsStop : Prop :=
  ∀ (i j : Instr) (s : State) (f : Fault) (q : Refusal),
    (exec i s = .fault f →
      leave (encode i) s (exec i s) =
        { s with
          lastT := if s.faulted = none ∧ f ≠ .timeReversal ∧ f ≠ .stuckInvalidRead then instrTime i
            else s.lastT
          faulted := some f } ∧
      exec j (leave (encode i) s (exec i s)) = .fault f) ∧
    (exec i s = .refused q →
      leave (encode i) s (exec i s) =
        { s with
          lastT := if s.refused = none then instrTime i else s.lastT
          refused := some q } ∧
      exec j (leave (encode i) s (exec i s)) = .refused q) ∧
    (s.faulted = some f → step s = .fault f) ∧
    (s.faulted = none → s.refused = some q → exec j s = .refused q ∧ step s = .refused q) ∧
    (s.faulted = none → s.refused = none → s.cpuStuck = true →
      (instrFromCpu j = true → exec j s = .fault .stuckInvalidRead) ∧
      (∀ a rest, s.inbox = .op a :: rest → a.fromCpu = true →
        step s = .next { s with inbox := rest })) ∧
    (instrFromCpu j = false → ∀ n, exec j s = .next n →
      exec j { s with cpuStuck := true } = .next { n with cpuStuck := true })

/-! ### Invariants -/

/-- R39, R40, R70, R73: every step keeps every bank, the SAT shadow and the dirty set in form. That a bank is a
canonical list is log entry 17, that the shadow holds at most 65536 bytes log entry 18: the model's choices. -/
def Obligations.StepKeepsBanks : Prop :=
  ∀ s n : State, BankForm s → step s = .next n → BankForm n

/-- R46, R134, R246: every step keeps the FIFO in form. -/
def Obligations.StepKeepsFifo : Prop :=
  ∀ s n : State, Kept FifoForm s → step s = .next n → Kept FifoForm n

/-- R36, R46: every step keeps the DMA request in form. -/
def Obligations.StepKeepsDma : Prop :=
  ∀ s n : State, Kept DmaForm s → step s = .next n → Kept DmaForm n

/-- R23, R24, R27, R31, R46, R71: every step keeps the byte variants' fields in form. -/
def Obligations.StepKeepsByteVariants : Prop :=
  ∀ s n : State, Kept ByteForm s → step s = .next n → Kept ByteForm n

/-- R41, R42, R43: in every step the cached mode, height and backdrop stay those of the registers and
CRAM. -/
def Obligations.StepKeepsCaches : Prop :=
  ∀ s n : State, CacheForm s → step s = .next n → CacheForm n

/-- R20, R34: no step changes the configuration, and the stored status word keeps only bits 1 to 7. -/
def Obligations.StepKeepsConfigAndStatus : Prop :=
  ∀ s n : State, step s = .next n → n.cfg = s.cfg ∧ (StatusForm s → StatusForm n)

/-- R44, R46: the state after `create` meets every invariant, whatever the configuration (the canonical form
of the banks is log entry 17, the model's choice); the reset state's parameters, which log entry 2 chooses,
keep the bounds of R8. -/
def Obligations.CreateMeetsInvariants : Prop :=
  (∀ c : Config, BankForm (State.create c) ∧ StatusForm (State.create c) ∧
    Kept FifoForm (State.create c) ∧ Kept DmaForm (State.create c) ∧
    Kept ByteForm (State.create c) ∧ CacheForm (State.create c)) ∧
  State.reset.cfg.ok = true
end

