-- ==== Sys2Proof/Laws/Memory.lean ====
section
/-! SUPPORT. The laws of a memory bank: a read after a write, and that a write keeps the canonical form. -/

namespace Sys2Proof

@[simp] theorem Memory.read_nil (a : Nat) : Memory.read [] a = 0#8 := rfl

theorem Memory.read_cons (k : Nat) (v : Byte) (m : Memory) (a : Nat) :
    Memory.read ((k, v) :: m) a = if a = k then v else Memory.read m a := rfl

theorem Memory.read_erase (m : Memory) (a b : Nat) :
    (Memory.erase m a).read b = if b = a then 0#8 else m.read b := by
  induction m with
  | nil => simp [Memory.erase]
  | cons c m ih =>
    obtain ⟨k, v⟩ := c
    unfold Memory.erase at ih ⊢
    by_cases hk : k = a
    · subst hk
      simp only [List.filter_cons, ne_eq, not_true, decide_false, Bool.false_eq_true, if_false, ih,
        Memory.read_cons]
      split <;> rfl
    · simp only [List.filter_cons, ne_eq, hk, not_false_eq_true, decide_true, if_true,
        Memory.read_cons, ih]
      by_cases hb : b = k
      · subst hb; simp [hk]
      · simp [hb]

theorem Memory.read_insert (m : Memory) (a b : Nat) (v : Byte) :
    (Memory.insert a v (Memory.erase m a)).read b = if b = a then v else m.read b := by
  have key : ∀ l : Memory, (∀ c ∈ l, c.1 ≠ a) →
      (Memory.insert a v l).read b = if b = a then v else l.read b := by
    intro l hl
    induction l with
    | nil => simp [Memory.insert, Memory.read_cons]
    | cons c l ih =>
      obtain ⟨k, w⟩ := c
      have hk : k ≠ a := hl (k, w) (by simp)
      have ih := ih fun c hc => hl c (by simp [hc])
      unfold Memory.insert
      split
      · simp only [Memory.read_cons]
      · simp only [Memory.read_cons, ih]
        by_cases hb : b = a
        · subst hb; simp [Ne.symm hk]
        · simp [hb]
  rw [key _ fun c hc => by simpa [Memory.erase] using (List.mem_filter.mp hc).2]
  split
  · rfl
  · rename_i hb; rw [Memory.read_erase]; simp [hb]

/-- A read after a write: the value written there, the old byte everywhere else. -/
theorem Memory.read_write (m : Memory) (a b : Nat) (v : Byte) :
    (m.write a v).read b = if b = a then v else m.read b := by
  unfold Memory.write
  split
  · rename_i hv; rw [Memory.read_erase, hv]
  · rw [Memory.read_insert]

@[simp] theorem Memory.read_write_same (m : Memory) (a : Nat) (v : Byte) :
    (m.write a v).read a = v := by simp [Memory.read_write]

theorem Memory.read_write_other (m : Memory) {a b : Nat} (v : Byte) (h : b ≠ a) :
    (m.write a v).read b = m.read b := by simp [Memory.read_write, h]

theorem Memory.wfFrom_mono {lo lo' size : Nat} {m : Memory} (hl : lo' ≤ lo)
    (h : Memory.wfFrom lo size m = true) : Memory.wfFrom lo' size m = true := by
  cases m with
  | nil => rfl
  | cons c m =>
    obtain ⟨k, v⟩ := c
    simp only [Memory.wfFrom, Bool.and_eq_true, decide_eq_true_eq] at h ⊢
    exact ⟨⟨⟨hl.trans h.1.1.1, h.1.1.2⟩, h.1.2⟩, h.2⟩

theorem Memory.wfFrom_erase {lo size : Nat} {m : Memory} (a : Nat)
    (h : Memory.wfFrom lo size m = true) : Memory.wfFrom lo size (m.erase a) = true := by
  induction m generalizing lo with
  | nil => rfl
  | cons c m ih =>
    obtain ⟨k, v⟩ := c
    simp only [Memory.wfFrom, Bool.and_eq_true, decide_eq_true_eq] at h
    unfold Memory.erase at ih ⊢
    simp only [List.filter_cons]
    split
    · simp only [Memory.wfFrom, Bool.and_eq_true, decide_eq_true_eq]
      exact ⟨h.1, ih h.2⟩
    · exact Memory.wfFrom_mono (by omega) (ih h.2)

theorem Memory.wfFrom_insert {lo size a : Nat} {v : Byte} {m : Memory} (hv : v ≠ 0#8)
    (ha : a < size) (hlo : lo ≤ a) (hm : ∀ c ∈ m, c.1 ≠ a)
    (h : Memory.wfFrom lo size m = true) : Memory.wfFrom lo size (Memory.insert a v m) = true := by
  induction m generalizing lo with
  | nil => simp [Memory.insert, Memory.wfFrom, hv, ha, hlo]
  | cons c m ih =>
    obtain ⟨k, w⟩ := c
    have hk : k ≠ a := hm (k, w) (by simp)
    simp only [Memory.wfFrom, Bool.and_eq_true, decide_eq_true_eq] at h
    unfold Memory.insert
    split
    · simp only [Memory.wfFrom, Bool.and_eq_true, decide_eq_true_eq]
      exact ⟨⟨⟨hlo, ha⟩, hv⟩, ⟨⟨by omega, h.1.1.2⟩, h.1.2⟩, h.2⟩
    · simp only [Memory.wfFrom, Bool.and_eq_true, decide_eq_true_eq]
      exact ⟨h.1, ih (by omega) (fun c hc => hm c (by simp [hc])) h.2⟩

/-- A write inside the bank keeps its canonical form. -/
theorem Memory.wf_write {size a : Nat} {m : Memory} (v : Byte) (ha : a < size)
    (h : Memory.wf size m = true) : Memory.wf size (m.write a v) = true := by
  unfold Memory.write
  split
  · exact Memory.wfFrom_erase a h
  · rename_i hv
    exact Memory.wfFrom_insert hv ha (Nat.zero_le a)
      (fun c hc => by simpa [Memory.erase] using (List.mem_filter.mp hc).2) (Memory.wfFrom_erase a h)

theorem Memory.mem_write {m : Memory} {a : Nat} {v : Byte} {c : Host.Cell}
    (h : c ∈ m.write a v) : c = (a, v) ∨ c ∈ m := by
  have hi : ∀ l : Memory, c ∈ Memory.insert a v l → c = (a, v) ∨ c ∈ l := by
    intro l
    induction l with
    | nil => simp [Memory.insert]
    | cons d l ih =>
      obtain ⟨k, w⟩ := d
      unfold Memory.insert
      split
      · simp
      · intro hc
        rcases List.mem_cons.mp hc with hc | hc
        · exact .inr (by simp [hc])
        · rcases ih hc with hc | hc
          · exact .inl hc
          · exact .inr (by simp [hc])
  unfold Memory.write at h
  split at h
  · exact .inr (List.mem_of_mem_filter h)
  · rcases hi _ h with h | h
    · exact .inl h
    · exact .inr (List.mem_of_mem_filter h)

/-- A CRAM write keeps CRAM's form where an upper byte gets one bit (R73). -/
theorem cramForm_write {m : Memory} {a : Nat} {v : Byte} (ha : a < 128)
    (hv : a % 2 = 0 ∨ v = 0#8 ∨ v = 1#8) (h : cramForm m = true) :
    cramForm (m.write a v) = true := by
  simp only [cramForm, Bool.and_eq_true, List.all_eq_true, Bool.or_eq_true, decide_eq_true_eq] at h ⊢
  refine ⟨Memory.wf_write v ha h.1, fun c hc => ?_⟩
  rcases hv with hv | hv | hv
  · rcases Memory.mem_write hc with rfl | hc
    · exact .inl hv
    · exact h.2 c hc
  · subst hv
    have : c ∈ m := by
      have he : c ∈ Memory.erase m a := by simpa [Memory.write] using hc
      exact List.mem_of_mem_filter he
    exact h.2 c this
  · rcases Memory.mem_write hc with rfl | hc
    · exact .inr hv
    · exact h.2 c hc

/-- Marking a tile adds that tile and no other. -/
theorem mem_markTile (i k : Nat) (l : List Nat) : k ∈ markTile i l ↔ k = i ∨ k ∈ l := by
  induction l with
  | nil => simp [markTile]
  | cons j l ih =>
    unfold markTile
    split
    · simp
    · split
      · rename_i h; subst h; simp
      · simp [ih]; tauto

/-- Marking a tile keeps the dirty set's form (R40). -/
theorem tilesFrom_markTile {lo i : Nat} {l : List Nat} (hlo : lo ≤ i) (hi : i < 2048)
    (h : tilesFrom lo l = true) : tilesFrom lo (markTile i l) = true := by
  induction l generalizing lo with
  | nil => simp [markTile, tilesFrom, hlo, hi]
  | cons j l ih =>
    simp only [tilesFrom, Bool.and_eq_true, decide_eq_true_eq] at h
    unfold markTile
    split
    · simp only [tilesFrom, Bool.and_eq_true, decide_eq_true_eq]
      exact ⟨⟨hlo, hi⟩, ⟨by omega, h.1.2⟩, h.2⟩
    · split
      · simp only [tilesFrom, Bool.and_eq_true, decide_eq_true_eq]; exact h
      · simp only [tilesFrom, Bool.and_eq_true, decide_eq_true_eq]
        exact ⟨h.1, ih (by omega) h.2⟩

end Sys2Proof
end

