-- ==== Sys2Proof/Laws/Outcome.lean ====
section
/-! SUPPORT. What the shared beginnings of the operations can answer, once each: when they go on and with
what state, and what holds when they gave a next state. -/

namespace Sys2Proof.Machine

@[simp] theorem andThen_next (s : State) (k : State → Res) : andThen (.next s) k = k s := rfl

@[simp] theorem andThen_fault (f : Fault) (k : State → Res) : andThen (.fault f) k = .fault f := rfl

@[simp] theorem andThen_refused (q : Refusal) (k : State → Res) :
    andThen (.refused q) k = .refused q := rfl

/-- A next state of a chain comes from a next state of its first part. -/
theorem andThen_eq_next {r : Res} {k : State → Res} {t : State} (h : andThen r k = .next t) :
    ∃ s, r = .next s ∧ k s = .next t := by
  cases r with
  | next s => exact ⟨s, rfl, h⟩
  | fault f => cases h
  | refused q => cases h

/-- An operation goes on from a ready state with its timestamp kept (R301). -/
theorem enter_ready {agent : Agent} {t : Nat} {s : State} (h : HostReady s t)
    (hc : agent = .cpu → s.cpuStuck = false) : enter agent t s = .next { s with lastT := t } := by
  obtain ⟨hf, hr, ht⟩ := h
  have hs : ¬ (agent = .cpu ∧ s.cpuStuck = true) := fun ⟨ha, hs⟩ => by simp [hc ha] at hs
  simp [enter, hf, hr, hs, Nat.not_lt.mpr ht]

/-- When an operation went on, its agent could issue it (R301, R322, R325). -/
theorem enter_eq_next {agent : Agent} {t : Nat} {s s' : State} (h : enter agent t s = .next s') :
    s' = { s with lastT := t } ∧ HostReady s t ∧ (agent = .cpu → s.cpuStuck = false) := by
  unfold enter at h
  split at h
  · cases h
  · rename_i hf
    split at h
    · cases h
    · rename_i hr
      split at h
      · cases h
      · rename_i hs
        split at h
        · cases h
        · rename_i ht
          refine ⟨by cases h; rfl, ⟨hf, hr, Nat.not_lt.mp ht⟩, fun ha => ?_⟩
          cases hst : s.cpuStuck
          · rfl
          · exact absurd ⟨ha, hst⟩ hs

/-- An idle block answers its own state, unless a mark ended the run (R322). -/
theorem idle_eq_next {s s' : State} (h : idle s = .next s') :
    s' = s ∧ s.faulted = none ∧ s.refused = none := by
  unfold idle at h
  split at h
  · cases h
  · split at h
    · cases h
    · rename_i hf _ hr
      cases h
      exact ⟨rfl, hf, hr⟩

theorem idle_ready {s : State} (hf : s.faulted = none) (hr : s.refused = none) :
    idle s = .next s := by simp [idle, hf, hr]

/-- An access that is no operation never gives a next state (R324). -/
theorem rejectAccess_ne_next (a : Access) (r : Reject) (s n : State) :
    rejectAccess a r s ≠ .next n := by
  intro h
  obtain ⟨s1, -, h2⟩ := andThen_eq_next h
  obtain ⟨s2, -, h3⟩ := andThen_eq_next h2
  cases h3

/-- All a step that gives a next state can do: nothing, a turn of the renderer, passing over an access of a
stuck CPU, or the decoded operation. -/
theorem step_eq_next {s n : State} (h : step s = .next n) :
    (s.inbox = [] ∧ n = s) ∨
    (∃ c rest, s.inbox = .render c :: rest ∧
      n = { s with inbox := rest, dirty := if c then [] else s.dirty }) ∨
    (∃ a rest, s.inbox = .op a :: rest ∧ a.fromCpu = true ∧ s.cpuStuck = true ∧
      n = { s with inbox := rest }) ∨
    (∃ a rest i, s.inbox = .op a :: rest ∧ heldBack a s = false ∧
      decode s.cfg.variant s.pending a = .ok i ∧ exec i { s with inbox := rest } = .next n) := by
  unfold step at h
  split at h
  · exact .inl ⟨‹_›, (idle_eq_next h).1⟩
  · rename_i c rest hb
    obtain ⟨s1, h1, h2⟩ := andThen_eq_next h
    obtain ⟨rfl, -⟩ := idle_eq_next h1
    refine .inr (.inl ⟨c, rest, hb, ?_⟩)
    cases h2
    cases c <;> rfl
  · rename_i a rest hb
    split at h
    · rename_i hh
      simp only [heldBack, Bool.and_eq_true] at hh
      exact .inr (.inr (.inl ⟨a, rest, hb, hh.1, hh.2, (idle_eq_next h).1⟩))
    · rename_i hh
      split at h
      · exact .inr (.inr (.inr ⟨a, rest, _, hb, by simpa using hh, ‹_›, h⟩))
      · exact absurd h (rejectAccess_ne_next _ _ _ _)

/-- What an access that may step does its own work in (R301). -/
theorem entered_ready {a : Access} {s : State} (h : HostReady s a.time)
    (hc : a.fromCpu = true → s.cpuStuck = false) : entered a s = { s with lastT := a.time } := by
  have hc' : agentOf a = .cpu → s.cpuStuck = false := fun ha => hc (by
    by_contra hn
    simp [agentOf, hn] at ha)
  simp [entered, enter_ready h hc']

/-- All entering can do to a state: keep the timestamp of an access that may step, or nothing (R301). -/
theorem entered_cases (a : Access) (s : State) :
    (entered a s = { s with lastT := a.time } ∧ HostReady s a.time) ∨ entered a s = s := by
  unfold entered
  split
  · rename_i h
    obtain ⟨rfl, hr, -⟩ := enter_eq_next h
    exact .inl ⟨rfl, hr⟩
  · exact .inr rfl
  · exact .inr rfl

/-- A port access goes on from a ready state of a variant that has the port (R278, R301, R326). -/
theorem portAccess_ready {ok : Variant → Bool} {t : Nat} {s : State} (h : PortReady s t)
    (hv : ok s.cfg.variant = true) : portAccess ok t s = .next { s with lastT := t } := by
  obtain ⟨⟨hr, hc⟩, hu⟩ := h
  simp [portAccess, enter_ready hr fun _ => hc, unfrozen, onlyOn, hu, hv]

/-- When a port access went on, the CPU could make it (R278, R301, R326). -/
theorem portAccess_eq_next {ok : Variant → Bool} {t : Nat} {s s' : State}
    (h : portAccess ok t s = .next s') :
    s' = { s with lastT := t } ∧ PortReady s t ∧ ok s.cfg.variant = true := by
  obtain ⟨s2, h2, h3⟩ := andThen_eq_next h
  obtain ⟨s1, h1, hu⟩ := andThen_eq_next h2
  obtain ⟨rfl, hr, hc⟩ := enter_eq_next h1
  unfold unfrozen at hu
  split at hu
  · cases hu
  · rename_i hd
    cases hu
    unfold onlyOn at h3
    split at h3
    · rename_i hv
      cases h3
      exact ⟨rfl, ⟨⟨hr, hc rfl⟩, hd⟩, hv⟩
    · cases h3

/-- A frozen CPU's port access faults (R278). -/
theorem portAccess_frozen {ok : Variant → Bool} {t : Nat} {s : State} (h : CpuReady s t)
    (hd : s.dmaType = some .vbusToVram) : portAccess ok t s = .fault .accessWhileFrozen := by
  simp [portAccess, enter_ready h.1 fun _ => h.2, unfrozen, hd]

/-- A control write is decoded and run from a ready state, no CPU-freezing DMA in flight (R130, R134). -/
theorem controlWrite_ready {ok : Variant → Bool} {v : Word} {t : Nat} {eff : State → State × Nat}
    {s : State} (h : PortReady s t) (hv : ok s.cfg.variant = true) :
    controlWrite ok v t eff s =
      .next { (eff { s with lastT := t }).1.relatch with
        out := ⟨none, (eff { s with lastT := t }).2, none⟩ } := by
  obtain ⟨⟨hr, hc⟩, hu⟩ := h
  simp [controlWrite, enter_ready hr fun _ => hc, onlyOn, hu, hv, finish]

/-- A control write to a frozen block is kept undecoded (R281). -/
theorem controlWrite_deferred {ok : Variant → Bool} {v : Word} {t : Nat}
    {eff : State → State × Nat} {s : State} (h : CpuReady s t)
    (hd : s.dmaType = some .vbusToVram) (hn : s.deferredCtrl = none) :
    controlWrite ok v t eff s =
      .next { s with lastT := t, deferredCtrl := some v, out := ⟨none, t, none⟩ } := by
  simp [controlWrite, enter_ready h.1 fun _ => h.2, hd, deferWrite, hn, finish]

/-- What a control write that gave a next state did: it was deferred, or its effect ran. -/
theorem controlWrite_eq_next {ok : Variant → Bool} {v : Word} {t : Nat}
    {eff : State → State × Nat} {s s' : State} (h : controlWrite ok v t eff s = .next s') :
    CpuReady s t ∧
    ((s.dmaType = some .vbusToVram ∧ s.deferredCtrl = none ∧
        s' = { s with lastT := t, deferredCtrl := some v, out := ⟨none, t, none⟩ }) ∨
     (Unfrozen s ∧ ok s.cfg.variant = true ∧
        s' = { (eff { s with lastT := t }).1.relatch with
          out := ⟨none, (eff { s with lastT := t }).2, none⟩ })) := by
  obtain ⟨s1, h1, h2⟩ := andThen_eq_next h
  obtain ⟨rfl, hr, hc⟩ := enter_eq_next h1
  refine ⟨⟨hr, hc rfl⟩, ?_⟩
  split at h2
  · rename_i hd
    unfold deferWrite at h2
    split at h2
    · rename_i hn
      exact .inl ⟨hd, hn, by cases h2; rfl⟩
    · cases h2
  · rename_i hd
    obtain ⟨s2, h3, h4⟩ := andThen_eq_next h2
    unfold onlyOn at h3
    split at h3
    · rename_i hv
      cases h3
      exact .inr ⟨hd, hv, by cases h4; rfl⟩
    · cases h3

end Sys2Proof.Machine
end

