-- ==== Sys2Proof/Laws/PerInstr.lean ====
section
/-! SUPPORT. Statements about every operation as syntax, one lemma per constructor of Instr. -/

namespace Sys2Proof

/-- Whether an access has the width of a variant's ports: words on `V68K`, bytes on the others; host
operations have none (R84, R100). -/
def Access.fits (v : Variant) : Access → Bool
  | .write16 _ _ _ => v.isWord
  | .write8 _ _ _ => v.isByte
  | .read16 _ _ => v.isWord
  | .read8 _ _ => v.isByte
  | .advance _ => true
  | .latchHv _ => true
  | .raster _ _ _ => true
  | .reset _ => true
  | .serialize _ => true
  | .deserialize _ _ => true

/-- The encoder gives an operation an access of the width its variants' ports have (R100, R107). -/
def Laws.Width.Statement (i : Instr) : Prop :=
  ∀ v : Variant, i.on v = true → (encode i).fits v = true

theorem Laws.isZ80_isByte : ∀ v : Variant, v.isZ80 = true → v.isByte = true := by
  intro v; cases v <;> simp [Variant.isZ80, Variant.isByte]

theorem Laws.isTms_isByte : ∀ v : Variant, v.isTms = true → v.isByte = true := by
  intro v; cases v <;> simp [Variant.isTms, Variant.isByte]

theorem Laws.Width.ctrlRw (ign : BitVec 1) (idx : BitVec 5) (data : Byte) (t : Nat) :
    Laws.Width.Statement (.ctrlRw ign idx data t) := fun _ h => h
theorem Laws.Width.ctrlA1 (cd : BitVec 2) (a : BitVec 14) (t : Nat) :
    Laws.Width.Statement (.ctrlA1 cd a t) := fun _ h => h
theorem Laws.Width.ctrlA2 (hi : BitVec 8) (cd : BitVec 4) (mid a : BitVec 2) (t : Nat) :
    Laws.Width.Statement (.ctrlA2 hi cd mid a t) := fun _ h => h
theorem Laws.Width.ctrlB1 (b : Byte) (t : Nat) : Laws.Width.Statement (.ctrlB1 b t) := fun _ h => h
theorem Laws.Width.ctrlB2Addr (cd : BitVec 2) (a : BitVec 6) (t : Nat) :
    Laws.Width.Statement (.ctrlB2Addr cd a t) := Laws.isZ80_isByte
theorem Laws.Width.ctrlB2Reg (a : BitVec 6) (t : Nat) :
    Laws.Width.Statement (.ctrlB2Reg a t) := Laws.isZ80_isByte
theorem Laws.Width.ctrlT2Addr (rw : BitVec 1) (a : BitVec 6) (t : Nat) :
    Laws.Width.Statement (.ctrlT2Addr rw a t) := Laws.isTms_isByte
theorem Laws.Width.ctrlT2Reg (ign : BitVec 4) (idx : BitVec 3) (t : Nat) :
    Laws.Width.Statement (.ctrlT2Reg ign idx t) := Laws.isTms_isByte
theorem Laws.Width.dataW16 (w : Word) (t : Nat) : Laws.Width.Statement (.dataW16 w t) := fun _ h => h
theorem Laws.Width.dataW8 (v : Byte) (t : Nat) : Laws.Width.Statement (.dataW8 v t) := fun _ h => h
theorem Laws.Width.dataR16 (t : Nat) : Laws.Width.Statement (.dataR16 t) := fun _ h => h
theorem Laws.Width.dataR8 (t : Nat) : Laws.Width.Statement (.dataR8 t) := fun _ h => h
theorem Laws.Width.ctrlR16 (t : Nat) : Laws.Width.Statement (.ctrlR16 t) := fun _ h => h
theorem Laws.Width.ctrlR8 (t : Nat) : Laws.Width.Statement (.ctrlR8 t) := fun _ h => h
theorem Laws.Width.hvR16 (t : Nat) : Laws.Width.Statement (.hvR16 t) := fun _ h => h
theorem Laws.Width.vR8 (t : Nat) : Laws.Width.Statement (.vR8 t) := fun _ h => h
theorem Laws.Width.hR8 (t : Nat) : Laws.Width.Statement (.hR8 t) := fun _ h => h
theorem Laws.Width.advance (t : Nat) : Laws.Width.Statement (.advance t) := fun _ _ => rfl
theorem Laws.Width.latchHv (t : Nat) : Laws.Width.Statement (.latchHv t) := fun _ _ => rfl
theorem Laws.Width.raster (setMask clearMask : Byte) (t : Nat) :
    Laws.Width.Statement (.raster setMask clearMask t) := fun _ _ => rfl
theorem Laws.Width.reset (t : Nat) : Laws.Width.Statement (.reset t) := fun _ _ => rfl
theorem Laws.Width.serialize (t : Nat) : Laws.Width.Statement (.serialize t) := fun _ _ => rfl
theorem Laws.Width.deserialize (snap : Snapshot) (t : Nat) :
    Laws.Width.Statement (.deserialize snap t) := fun _ _ => rfl

end Sys2Proof
end

