-- ==== Sys2Proof/Laws/State.lean ====
section
/-! SUPPORT. What each update of the state leaves unchanged, field by field, so that no proof unfolds an
update; and the register fields, which an update that changes no register leaves as they were. -/

namespace Sys2Proof.Machine

/-- `SAT_RANGE` is a function of the configuration and the registers (R8, R75). -/
theorem State.satRange_congr {a b : State} (hc : a.cfg = b.cfg) (hr : a.reg = b.reg) :
    a.satRange = b.satRange := by
  have h : ∀ s : State, s.satRange = ({ State.create s.cfg with reg := s.reg } : State).satRange :=
    fun _ => rfl
  rw [h a, h b, hc, hr]

variable (s : State)

/-! ### setReg -/

@[simp] theorem State.setReg_cfg (i : BitVec 5) (d : Byte) : (s.setReg i d).cfg = s.cfg := rfl
@[simp] theorem State.setReg_addr (i : BitVec 5) (d : Byte) : (s.setReg i d).addr = s.addr := rfl
@[simp] theorem State.setReg_code (i : BitVec 5) (d : Byte) : (s.setReg i d).code = s.code := rfl
@[simp] theorem State.setReg_pending (i : BitVec 5) (d : Byte) : (s.setReg i d).pending = s.pending := rfl
@[simp] theorem State.setReg_ctrlLatch (i : BitVec 5) (d : Byte) : (s.setReg i d).ctrlLatch = s.ctrlLatch := rfl
@[simp] theorem State.setReg_readBuf (i : BitVec 5) (d : Byte) : (s.setReg i d).readBuf = s.readBuf := rfl
@[simp] theorem State.setReg_ggLatch (i : BitVec 5) (d : Byte) : (s.setReg i d).ggLatch = s.ggLatch := rfl
@[simp] theorem State.setReg_status (i : BitVec 5) (d : Byte) : (s.setReg i d).status = s.status := rfl
@[simp] theorem State.setReg_fifoCount (i : BitVec 5) (d : Byte) : (s.setReg i d).fifoCount = s.fifoCount := rfl
@[simp] theorem State.setReg_fifoLastWrite (i : BitVec 5) (d : Byte) : (s.setReg i d).fifoLastWrite = s.fifoLastWrite := rfl
@[simp] theorem State.setReg_fifoLatency (i : BitVec 5) (d : Byte) : (s.setReg i d).fifoLatency = s.fifoLatency := rfl
@[simp] theorem State.setReg_dmaType (i : BitVec 5) (d : Byte) : (s.setReg i d).dmaType = s.dmaType := rfl
@[simp] theorem State.setReg_dmaRemaining (i : BitVec 5) (d : Byte) : (s.setReg i d).dmaRemaining = s.dmaRemaining := rfl
@[simp] theorem State.setReg_dmaSource (i : BitVec 5) (d : Byte) : (s.setReg i d).dmaSource = s.dmaSource := rfl
@[simp] theorem State.setReg_fillArmed (i : BitVec 5) (d : Byte) : (s.setReg i d).fillArmed = s.fillArmed := rfl
@[simp] theorem State.setReg_fillByte (i : BitVec 5) (d : Byte) : (s.setReg i d).fillByte = s.fillByte := rfl
@[simp] theorem State.setReg_dmaEndCycles (i : BitVec 5) (d : Byte) : (s.setReg i d).dmaEndCycles = s.dmaEndCycles := rfl
@[simp] theorem State.setReg_deferredCtrl (i : BitVec 5) (d : Byte) : (s.setReg i d).deferredCtrl = s.deferredCtrl := rfl
@[simp] theorem State.setReg_hvLatch (i : BitVec 5) (d : Byte) : (s.setReg i d).hvLatch = s.hvLatch := rfl
@[simp] theorem State.setReg_lastT (i : BitVec 5) (d : Byte) : (s.setReg i d).lastT = s.lastT := rfl
@[simp] theorem State.setReg_vram (i : BitVec 5) (d : Byte) : (s.setReg i d).vram = s.vram := rfl
@[simp] theorem State.setReg_cram (i : BitVec 5) (d : Byte) : (s.setReg i d).cram = s.cram := rfl
@[simp] theorem State.setReg_vsram (i : BitVec 5) (d : Byte) : (s.setReg i d).vsram = s.vsram := rfl
@[simp] theorem State.setReg_sat (i : BitVec 5) (d : Byte) : (s.setReg i d).sat = s.sat := rfl
@[simp] theorem State.setReg_dirty (i : BitVec 5) (d : Byte) : (s.setReg i d).dirty = s.dirty := rfl
@[simp] theorem State.setReg_renderMode (i : BitVec 5) (d : Byte) : (s.setReg i d).renderMode = s.renderMode := rfl
@[simp] theorem State.setReg_displayLines (i : BitVec 5) (d : Byte) : (s.setReg i d).displayLines = s.displayLines := rfl
@[simp] theorem State.setReg_backdropColor (i : BitVec 5) (d : Byte) : (s.setReg i d).backdropColor = s.backdropColor := rfl
@[simp] theorem State.setReg_faulted (i : BitVec 5) (d : Byte) : (s.setReg i d).faulted = s.faulted := rfl
@[simp] theorem State.setReg_refused (i : BitVec 5) (d : Byte) : (s.setReg i d).refused = s.refused := rfl
@[simp] theorem State.setReg_cpuStuck (i : BitVec 5) (d : Byte) : (s.setReg i d).cpuStuck = s.cpuStuck := rfl
@[simp] theorem State.setReg_inbox (i : BitVec 5) (d : Byte) : (s.setReg i d).inbox = s.inbox := rfl
@[simp] theorem State.setReg_draws (i : BitVec 5) (d : Byte) : (s.setReg i d).draws = s.draws := rfl
@[simp] theorem State.setReg_out (i : BitVec 5) (d : Byte) : (s.setReg i d).out = s.out := rfl
@[simp] theorem State.setReg_logIdx (i : BitVec 5) (d : Byte) (x : Word) : (s.setReg i d).logIdx x = s.logIdx x := by
  unfold State.logIdx; rw [State.setReg_cfg]
@[simp] theorem State.setReg_target (i : BitVec 5) (d : Byte) : (s.setReg i d).target = s.target := by simp [State.target]

/-! ### drawn -/

@[simp] theorem State.drawn_cfg : (s.drawn).cfg = s.cfg := rfl
@[simp] theorem State.drawn_reg : (s.drawn).reg = s.reg := rfl
@[simp] theorem State.drawn_addr : (s.drawn).addr = s.addr := rfl
@[simp] theorem State.drawn_code : (s.drawn).code = s.code := rfl
@[simp] theorem State.drawn_pending : (s.drawn).pending = s.pending := rfl
@[simp] theorem State.drawn_ctrlLatch : (s.drawn).ctrlLatch = s.ctrlLatch := rfl
@[simp] theorem State.drawn_readBuf : (s.drawn).readBuf = s.readBuf := rfl
@[simp] theorem State.drawn_ggLatch : (s.drawn).ggLatch = s.ggLatch := rfl
@[simp] theorem State.drawn_status : (s.drawn).status = s.status := rfl
@[simp] theorem State.drawn_fifoCount : (s.drawn).fifoCount = s.fifoCount := rfl
@[simp] theorem State.drawn_fifoLastWrite : (s.drawn).fifoLastWrite = s.fifoLastWrite := rfl
@[simp] theorem State.drawn_fifoLatency : (s.drawn).fifoLatency = s.fifoLatency := rfl
@[simp] theorem State.drawn_dmaType : (s.drawn).dmaType = s.dmaType := rfl
@[simp] theorem State.drawn_dmaRemaining : (s.drawn).dmaRemaining = s.dmaRemaining := rfl
@[simp] theorem State.drawn_dmaSource : (s.drawn).dmaSource = s.dmaSource := rfl
@[simp] theorem State.drawn_fillArmed : (s.drawn).fillArmed = s.fillArmed := rfl
@[simp] theorem State.drawn_fillByte : (s.drawn).fillByte = s.fillByte := rfl
@[simp] theorem State.drawn_dmaEndCycles : (s.drawn).dmaEndCycles = s.dmaEndCycles := rfl
@[simp] theorem State.drawn_deferredCtrl : (s.drawn).deferredCtrl = s.deferredCtrl := rfl
@[simp] theorem State.drawn_hvLatch : (s.drawn).hvLatch = s.hvLatch := rfl
@[simp] theorem State.drawn_lastT : (s.drawn).lastT = s.lastT := rfl
@[simp] theorem State.drawn_vram : (s.drawn).vram = s.vram := rfl
@[simp] theorem State.drawn_cram : (s.drawn).cram = s.cram := rfl
@[simp] theorem State.drawn_vsram : (s.drawn).vsram = s.vsram := rfl
@[simp] theorem State.drawn_sat : (s.drawn).sat = s.sat := rfl
@[simp] theorem State.drawn_dirty : (s.drawn).dirty = s.dirty := rfl
@[simp] theorem State.drawn_renderMode : (s.drawn).renderMode = s.renderMode := rfl
@[simp] theorem State.drawn_displayLines : (s.drawn).displayLines = s.displayLines := rfl
@[simp] theorem State.drawn_backdropColor : (s.drawn).backdropColor = s.backdropColor := rfl
@[simp] theorem State.drawn_faulted : (s.drawn).faulted = s.faulted := rfl
@[simp] theorem State.drawn_refused : (s.drawn).refused = s.refused := rfl
@[simp] theorem State.drawn_cpuStuck : (s.drawn).cpuStuck = s.cpuStuck := rfl
@[simp] theorem State.drawn_inbox : (s.drawn).inbox = s.inbox := rfl
@[simp] theorem State.drawn_out : (s.drawn).out = s.out := rfl
@[simp] theorem State.drawn_rd (j : BitVec 5) : (s.drawn).rd j = s.rd j := by
  simp [State.rd]
@[simp] theorem State.drawn_m5 : (s.drawn).m5 = s.m5 := by simp [State.m5]
@[simp] theorem State.drawn_h40 : (s.drawn).h40 = s.h40 := by simp [State.h40, State.m5]
@[simp] theorem State.drawn_inc : (s.drawn).inc = s.inc := by
  unfold State.inc; simp only [State.drawn_m5, State.drawn_rd]
@[simp] theorem State.drawn_dispEn : (s.drawn).dispEn = s.dispEn := by simp [State.dispEn]
@[simp] theorem State.drawn_backdropIdx : (s.drawn).backdropIdx = s.backdropIdx := by
  unfold State.backdropIdx; simp only [State.drawn_m5, State.drawn_rd]
@[simp] theorem State.drawn_satRange : (s.drawn).satRange = s.satRange := State.satRange_congr (by simp) (by simp)
@[simp] theorem State.drawn_logIdx (x : Word) : (s.drawn).logIdx x = s.logIdx x := by
  unfold State.logIdx; rw [State.drawn_cfg]
@[simp] theorem State.drawn_inSat (x : Word) : (s.drawn).inSat x = s.inSat x := by
  simp [State.inSat]
@[simp] theorem State.drawn_satIdx (x : Word) : (s.drawn).satIdx x = s.satIdx x := by
  simp [State.satIdx]
@[simp] theorem State.drawn_target : (s.drawn).target = s.target := by simp [State.target]

/-! ### advance16 -/

@[simp] theorem State.advance16_cfg : (s.advance16).cfg = s.cfg := rfl
@[simp] theorem State.advance16_reg : (s.advance16).reg = s.reg := rfl
@[simp] theorem State.advance16_code : (s.advance16).code = s.code := rfl
@[simp] theorem State.advance16_pending : (s.advance16).pending = s.pending := rfl
@[simp] theorem State.advance16_ctrlLatch : (s.advance16).ctrlLatch = s.ctrlLatch := rfl
@[simp] theorem State.advance16_readBuf : (s.advance16).readBuf = s.readBuf := rfl
@[simp] theorem State.advance16_ggLatch : (s.advance16).ggLatch = s.ggLatch := rfl
@[simp] theorem State.advance16_status : (s.advance16).status = s.status := rfl
@[simp] theorem State.advance16_fifoCount : (s.advance16).fifoCount = s.fifoCount := rfl
@[simp] theorem State.advance16_fifoLastWrite : (s.advance16).fifoLastWrite = s.fifoLastWrite := rfl
@[simp] theorem State.advance16_fifoLatency : (s.advance16).fifoLatency = s.fifoLatency := rfl
@[simp] theorem State.advance16_dmaType : (s.advance16).dmaType = s.dmaType := rfl
@[simp] theorem State.advance16_dmaRemaining : (s.advance16).dmaRemaining = s.dmaRemaining := rfl
@[simp] theorem State.advance16_dmaSource : (s.advance16).dmaSource = s.dmaSource := rfl
@[simp] theorem State.advance16_fillArmed : (s.advance16).fillArmed = s.fillArmed := rfl
@[simp] theorem State.advance16_fillByte : (s.advance16).fillByte = s.fillByte := rfl
@[simp] theorem State.advance16_dmaEndCycles : (s.advance16).dmaEndCycles = s.dmaEndCycles := rfl
@[simp] theorem State.advance16_deferredCtrl : (s.advance16).deferredCtrl = s.deferredCtrl := rfl
@[simp] theorem State.advance16_hvLatch : (s.advance16).hvLatch = s.hvLatch := rfl
@[simp] theorem State.advance16_lastT : (s.advance16).lastT = s.lastT := rfl
@[simp] theorem State.advance16_vram : (s.advance16).vram = s.vram := rfl
@[simp] theorem State.advance16_cram : (s.advance16).cram = s.cram := rfl
@[simp] theorem State.advance16_vsram : (s.advance16).vsram = s.vsram := rfl
@[simp] theorem State.advance16_sat : (s.advance16).sat = s.sat := rfl
@[simp] theorem State.advance16_dirty : (s.advance16).dirty = s.dirty := rfl
@[simp] theorem State.advance16_renderMode : (s.advance16).renderMode = s.renderMode := rfl
@[simp] theorem State.advance16_displayLines : (s.advance16).displayLines = s.displayLines := rfl
@[simp] theorem State.advance16_backdropColor : (s.advance16).backdropColor = s.backdropColor := rfl
@[simp] theorem State.advance16_faulted : (s.advance16).faulted = s.faulted := rfl
@[simp] theorem State.advance16_refused : (s.advance16).refused = s.refused := rfl
@[simp] theorem State.advance16_cpuStuck : (s.advance16).cpuStuck = s.cpuStuck := rfl
@[simp] theorem State.advance16_inbox : (s.advance16).inbox = s.inbox := rfl
@[simp] theorem State.advance16_draws : (s.advance16).draws = s.draws := rfl
@[simp] theorem State.advance16_out : (s.advance16).out = s.out := rfl
@[simp] theorem State.advance16_rd (j : BitVec 5) : (s.advance16).rd j = s.rd j := by
  simp [State.rd]
@[simp] theorem State.advance16_m5 : (s.advance16).m5 = s.m5 := by simp [State.m5]
@[simp] theorem State.advance16_h40 : (s.advance16).h40 = s.h40 := by simp [State.h40, State.m5]
@[simp] theorem State.advance16_inc : (s.advance16).inc = s.inc := by
  unfold State.inc; simp only [State.advance16_m5, State.advance16_rd]
@[simp] theorem State.advance16_dispEn : (s.advance16).dispEn = s.dispEn := by simp [State.dispEn]
@[simp] theorem State.advance16_backdropIdx : (s.advance16).backdropIdx = s.backdropIdx := by
  unfold State.backdropIdx; simp only [State.advance16_m5, State.advance16_rd]
@[simp] theorem State.advance16_satRange : (s.advance16).satRange = s.satRange := State.satRange_congr (by simp) (by simp)
@[simp] theorem State.advance16_logIdx (x : Word) : (s.advance16).logIdx x = s.logIdx x := by
  unfold State.logIdx; rw [State.advance16_cfg]
@[simp] theorem State.advance16_inSat (x : Word) : (s.advance16).inSat x = s.inSat x := by
  simp [State.inSat]
@[simp] theorem State.advance16_satIdx (x : Word) : (s.advance16).satIdx x = s.satIdx x := by
  simp [State.satIdx]
@[simp] theorem State.advance16_target : (s.advance16).target = s.target := by simp [State.target]

/-! ### advance14 -/

@[simp] theorem State.advance14_cfg : (s.advance14).cfg = s.cfg := rfl
@[simp] theorem State.advance14_reg : (s.advance14).reg = s.reg := rfl
@[simp] theorem State.advance14_code : (s.advance14).code = s.code := rfl
@[simp] theorem State.advance14_pending : (s.advance14).pending = s.pending := rfl
@[simp] theorem State.advance14_ctrlLatch : (s.advance14).ctrlLatch = s.ctrlLatch := rfl
@[simp] theorem State.advance14_readBuf : (s.advance14).readBuf = s.readBuf := rfl
@[simp] theorem State.advance14_ggLatch : (s.advance14).ggLatch = s.ggLatch := rfl
@[simp] theorem State.advance14_status : (s.advance14).status = s.status := rfl
@[simp] theorem State.advance14_fifoCount : (s.advance14).fifoCount = s.fifoCount := rfl
@[simp] theorem State.advance14_fifoLastWrite : (s.advance14).fifoLastWrite = s.fifoLastWrite := rfl
@[simp] theorem State.advance14_fifoLatency : (s.advance14).fifoLatency = s.fifoLatency := rfl
@[simp] theorem State.advance14_dmaType : (s.advance14).dmaType = s.dmaType := rfl
@[simp] theorem State.advance14_dmaRemaining : (s.advance14).dmaRemaining = s.dmaRemaining := rfl
@[simp] theorem State.advance14_dmaSource : (s.advance14).dmaSource = s.dmaSource := rfl
@[simp] theorem State.advance14_fillArmed : (s.advance14).fillArmed = s.fillArmed := rfl
@[simp] theorem State.advance14_fillByte : (s.advance14).fillByte = s.fillByte := rfl
@[simp] theorem State.advance14_dmaEndCycles : (s.advance14).dmaEndCycles = s.dmaEndCycles := rfl
@[simp] theorem State.advance14_deferredCtrl : (s.advance14).deferredCtrl = s.deferredCtrl := rfl
@[simp] theorem State.advance14_hvLatch : (s.advance14).hvLatch = s.hvLatch := rfl
@[simp] theorem State.advance14_lastT : (s.advance14).lastT = s.lastT := rfl
@[simp] theorem State.advance14_vram : (s.advance14).vram = s.vram := rfl
@[simp] theorem State.advance14_cram : (s.advance14).cram = s.cram := rfl
@[simp] theorem State.advance14_vsram : (s.advance14).vsram = s.vsram := rfl
@[simp] theorem State.advance14_sat : (s.advance14).sat = s.sat := rfl
@[simp] theorem State.advance14_dirty : (s.advance14).dirty = s.dirty := rfl
@[simp] theorem State.advance14_renderMode : (s.advance14).renderMode = s.renderMode := rfl
@[simp] theorem State.advance14_displayLines : (s.advance14).displayLines = s.displayLines := rfl
@[simp] theorem State.advance14_backdropColor : (s.advance14).backdropColor = s.backdropColor := rfl
@[simp] theorem State.advance14_faulted : (s.advance14).faulted = s.faulted := rfl
@[simp] theorem State.advance14_refused : (s.advance14).refused = s.refused := rfl
@[simp] theorem State.advance14_cpuStuck : (s.advance14).cpuStuck = s.cpuStuck := rfl
@[simp] theorem State.advance14_inbox : (s.advance14).inbox = s.inbox := rfl
@[simp] theorem State.advance14_draws : (s.advance14).draws = s.draws := rfl
@[simp] theorem State.advance14_out : (s.advance14).out = s.out := rfl
@[simp] theorem State.advance14_rd (j : BitVec 5) : (s.advance14).rd j = s.rd j := by
  simp [State.rd]
@[simp] theorem State.advance14_m5 : (s.advance14).m5 = s.m5 := by simp [State.m5]
@[simp] theorem State.advance14_h40 : (s.advance14).h40 = s.h40 := by simp [State.h40, State.m5]
@[simp] theorem State.advance14_inc : (s.advance14).inc = s.inc := by
  unfold State.inc; simp only [State.advance14_m5, State.advance14_rd]
@[simp] theorem State.advance14_dispEn : (s.advance14).dispEn = s.dispEn := by simp [State.dispEn]
@[simp] theorem State.advance14_backdropIdx : (s.advance14).backdropIdx = s.backdropIdx := by
  unfold State.backdropIdx; simp only [State.advance14_m5, State.advance14_rd]
@[simp] theorem State.advance14_satRange : (s.advance14).satRange = s.satRange := State.satRange_congr (by simp) (by simp)
@[simp] theorem State.advance14_logIdx (x : Word) : (s.advance14).logIdx x = s.logIdx x := by
  unfold State.logIdx; rw [State.advance14_cfg]
@[simp] theorem State.advance14_inSat (x : Word) : (s.advance14).inSat x = s.inSat x := by
  simp [State.inSat]
@[simp] theorem State.advance14_satIdx (x : Word) : (s.advance14).satIdx x = s.satIdx x := by
  simp [State.satIdx]
@[simp] theorem State.advance14_target : (s.advance14).target = s.target := by simp [State.target]

/-! ### republish -/

@[simp] theorem State.republish_cfg : (s.republish).cfg = s.cfg := rfl
@[simp] theorem State.republish_reg : (s.republish).reg = s.reg := rfl
@[simp] theorem State.republish_addr : (s.republish).addr = s.addr := rfl
@[simp] theorem State.republish_code : (s.republish).code = s.code := rfl
@[simp] theorem State.republish_pending : (s.republish).pending = s.pending := rfl
@[simp] theorem State.republish_ctrlLatch : (s.republish).ctrlLatch = s.ctrlLatch := rfl
@[simp] theorem State.republish_readBuf : (s.republish).readBuf = s.readBuf := rfl
@[simp] theorem State.republish_ggLatch : (s.republish).ggLatch = s.ggLatch := rfl
@[simp] theorem State.republish_status : (s.republish).status = s.status := rfl
@[simp] theorem State.republish_fifoCount : (s.republish).fifoCount = s.fifoCount := rfl
@[simp] theorem State.republish_fifoLastWrite : (s.republish).fifoLastWrite = s.fifoLastWrite := rfl
@[simp] theorem State.republish_fifoLatency : (s.republish).fifoLatency = s.fifoLatency := rfl
@[simp] theorem State.republish_dmaType : (s.republish).dmaType = s.dmaType := rfl
@[simp] theorem State.republish_dmaRemaining : (s.republish).dmaRemaining = s.dmaRemaining := rfl
@[simp] theorem State.republish_dmaSource : (s.republish).dmaSource = s.dmaSource := rfl
@[simp] theorem State.republish_fillArmed : (s.republish).fillArmed = s.fillArmed := rfl
@[simp] theorem State.republish_fillByte : (s.republish).fillByte = s.fillByte := rfl
@[simp] theorem State.republish_dmaEndCycles : (s.republish).dmaEndCycles = s.dmaEndCycles := rfl
@[simp] theorem State.republish_deferredCtrl : (s.republish).deferredCtrl = s.deferredCtrl := rfl
@[simp] theorem State.republish_hvLatch : (s.republish).hvLatch = s.hvLatch := rfl
@[simp] theorem State.republish_lastT : (s.republish).lastT = s.lastT := rfl
@[simp] theorem State.republish_vram : (s.republish).vram = s.vram := rfl
@[simp] theorem State.republish_cram : (s.republish).cram = s.cram := rfl
@[simp] theorem State.republish_vsram : (s.republish).vsram = s.vsram := rfl
@[simp] theorem State.republish_sat : (s.republish).sat = s.sat := rfl
@[simp] theorem State.republish_dirty : (s.republish).dirty = s.dirty := rfl
@[simp] theorem State.republish_renderMode : (s.republish).renderMode = s.renderMode := rfl
@[simp] theorem State.republish_displayLines : (s.republish).displayLines = s.displayLines := rfl
@[simp] theorem State.republish_faulted : (s.republish).faulted = s.faulted := rfl
@[simp] theorem State.republish_refused : (s.republish).refused = s.refused := rfl
@[simp] theorem State.republish_cpuStuck : (s.republish).cpuStuck = s.cpuStuck := rfl
@[simp] theorem State.republish_inbox : (s.republish).inbox = s.inbox := rfl
@[simp] theorem State.republish_draws : (s.republish).draws = s.draws := rfl
@[simp] theorem State.republish_out : (s.republish).out = s.out := rfl
@[simp] theorem State.republish_rd (j : BitVec 5) : (s.republish).rd j = s.rd j := by
  simp [State.rd]
@[simp] theorem State.republish_m5 : (s.republish).m5 = s.m5 := by simp [State.m5]
@[simp] theorem State.republish_h40 : (s.republish).h40 = s.h40 := by simp [State.h40, State.m5]
@[simp] theorem State.republish_inc : (s.republish).inc = s.inc := by
  unfold State.inc; simp only [State.republish_m5, State.republish_rd]
@[simp] theorem State.republish_dispEn : (s.republish).dispEn = s.dispEn := by simp [State.dispEn]
@[simp] theorem State.republish_backdropIdx : (s.republish).backdropIdx = s.backdropIdx := by
  unfold State.backdropIdx; simp only [State.republish_m5, State.republish_rd]
@[simp] theorem State.republish_satRange : (s.republish).satRange = s.satRange := State.satRange_congr (by simp) (by simp)
@[simp] theorem State.republish_logIdx (x : Word) : (s.republish).logIdx x = s.logIdx x := by
  unfold State.logIdx; rw [State.republish_cfg]
@[simp] theorem State.republish_inSat (x : Word) : (s.republish).inSat x = s.inSat x := by
  simp [State.inSat]
@[simp] theorem State.republish_satIdx (x : Word) : (s.republish).satIdx x = s.satIdx x := by
  simp [State.satIdx]
@[simp] theorem State.republish_target : (s.republish).target = s.target := by simp [State.target]

/-! ### vsramWrite -/

@[simp] theorem State.vsramWrite_cfg (a w : Word) : (s.vsramWrite a w).cfg = s.cfg := rfl
@[simp] theorem State.vsramWrite_reg (a w : Word) : (s.vsramWrite a w).reg = s.reg := rfl
@[simp] theorem State.vsramWrite_addr (a w : Word) : (s.vsramWrite a w).addr = s.addr := rfl
@[simp] theorem State.vsramWrite_code (a w : Word) : (s.vsramWrite a w).code = s.code := rfl
@[simp] theorem State.vsramWrite_pending (a w : Word) : (s.vsramWrite a w).pending = s.pending := rfl
@[simp] theorem State.vsramWrite_ctrlLatch (a w : Word) : (s.vsramWrite a w).ctrlLatch = s.ctrlLatch := rfl
@[simp] theorem State.vsramWrite_readBuf (a w : Word) : (s.vsramWrite a w).readBuf = s.readBuf := rfl
@[simp] theorem State.vsramWrite_ggLatch (a w : Word) : (s.vsramWrite a w).ggLatch = s.ggLatch := rfl
@[simp] theorem State.vsramWrite_status (a w : Word) : (s.vsramWrite a w).status = s.status := rfl
@[simp] theorem State.vsramWrite_fifoCount (a w : Word) : (s.vsramWrite a w).fifoCount = s.fifoCount := rfl
@[simp] theorem State.vsramWrite_fifoLastWrite (a w : Word) : (s.vsramWrite a w).fifoLastWrite = s.fifoLastWrite := rfl
@[simp] theorem State.vsramWrite_fifoLatency (a w : Word) : (s.vsramWrite a w).fifoLatency = s.fifoLatency := rfl
@[simp] theorem State.vsramWrite_dmaType (a w : Word) : (s.vsramWrite a w).dmaType = s.dmaType := rfl
@[simp] theorem State.vsramWrite_dmaRemaining (a w : Word) : (s.vsramWrite a w).dmaRemaining = s.dmaRemaining := rfl
@[simp] theorem State.vsramWrite_dmaSource (a w : Word) : (s.vsramWrite a w).dmaSource = s.dmaSource := rfl
@[simp] theorem State.vsramWrite_fillArmed (a w : Word) : (s.vsramWrite a w).fillArmed = s.fillArmed := rfl
@[simp] theorem State.vsramWrite_fillByte (a w : Word) : (s.vsramWrite a w).fillByte = s.fillByte := rfl
@[simp] theorem State.vsramWrite_dmaEndCycles (a w : Word) : (s.vsramWrite a w).dmaEndCycles = s.dmaEndCycles := rfl
@[simp] theorem State.vsramWrite_deferredCtrl (a w : Word) : (s.vsramWrite a w).deferredCtrl = s.deferredCtrl := rfl
@[simp] theorem State.vsramWrite_hvLatch (a w : Word) : (s.vsramWrite a w).hvLatch = s.hvLatch := rfl
@[simp] theorem State.vsramWrite_lastT (a w : Word) : (s.vsramWrite a w).lastT = s.lastT := rfl
@[simp] theorem State.vsramWrite_vram (a w : Word) : (s.vsramWrite a w).vram = s.vram := rfl
@[simp] theorem State.vsramWrite_cram (a w : Word) : (s.vsramWrite a w).cram = s.cram := rfl
@[simp] theorem State.vsramWrite_sat (a w : Word) : (s.vsramWrite a w).sat = s.sat := rfl
@[simp] theorem State.vsramWrite_dirty (a w : Word) : (s.vsramWrite a w).dirty = s.dirty := rfl
@[simp] theorem State.vsramWrite_renderMode (a w : Word) : (s.vsramWrite a w).renderMode = s.renderMode := rfl
@[simp] theorem State.vsramWrite_displayLines (a w : Word) : (s.vsramWrite a w).displayLines = s.displayLines := rfl
@[simp] theorem State.vsramWrite_backdropColor (a w : Word) : (s.vsramWrite a w).backdropColor = s.backdropColor := rfl
@[simp] theorem State.vsramWrite_faulted (a w : Word) : (s.vsramWrite a w).faulted = s.faulted := rfl
@[simp] theorem State.vsramWrite_refused (a w : Word) : (s.vsramWrite a w).refused = s.refused := rfl
@[simp] theorem State.vsramWrite_cpuStuck (a w : Word) : (s.vsramWrite a w).cpuStuck = s.cpuStuck := rfl
@[simp] theorem State.vsramWrite_inbox (a w : Word) : (s.vsramWrite a w).inbox = s.inbox := rfl
@[simp] theorem State.vsramWrite_draws (a w : Word) : (s.vsramWrite a w).draws = s.draws := rfl
@[simp] theorem State.vsramWrite_out (a w : Word) : (s.vsramWrite a w).out = s.out := rfl
@[simp] theorem State.vsramWrite_rd (a w : Word) (j : BitVec 5) : (s.vsramWrite a w).rd j = s.rd j := by
  simp [State.rd]
@[simp] theorem State.vsramWrite_m5 (a w : Word) : (s.vsramWrite a w).m5 = s.m5 := by simp [State.m5]
@[simp] theorem State.vsramWrite_h40 (a w : Word) : (s.vsramWrite a w).h40 = s.h40 := by simp [State.h40, State.m5]
@[simp] theorem State.vsramWrite_inc (a w : Word) : (s.vsramWrite a w).inc = s.inc := by
  unfold State.inc; simp only [State.vsramWrite_m5, State.vsramWrite_rd]
@[simp] theorem State.vsramWrite_dispEn (a w : Word) : (s.vsramWrite a w).dispEn = s.dispEn := by simp [State.dispEn]
@[simp] theorem State.vsramWrite_backdropIdx (a w : Word) : (s.vsramWrite a w).backdropIdx = s.backdropIdx := by
  unfold State.backdropIdx; simp only [State.vsramWrite_m5, State.vsramWrite_rd]
@[simp] theorem State.vsramWrite_satRange (a w : Word) : (s.vsramWrite a w).satRange = s.satRange := State.satRange_congr (by simp) (by simp)
@[simp] theorem State.vsramWrite_logIdx (a w : Word) (x : Word) : (s.vsramWrite a w).logIdx x = s.logIdx x := by
  unfold State.logIdx; rw [State.vsramWrite_cfg]
@[simp] theorem State.vsramWrite_inSat (a w : Word) (x : Word) : (s.vsramWrite a w).inSat x = s.inSat x := by
  simp [State.inSat]
@[simp] theorem State.vsramWrite_satIdx (a w : Word) (x : Word) : (s.vsramWrite a w).satIdx x = s.satIdx x := by
  simp [State.satIdx]
@[simp] theorem State.vsramWrite_target (a w : Word) : (s.vsramWrite a w).target = s.target := by simp [State.target]

/-! ### setDmaBusy -/

@[simp] theorem State.setDmaBusy_cfg : (s.setDmaBusy).cfg = s.cfg := rfl
@[simp] theorem State.setDmaBusy_reg : (s.setDmaBusy).reg = s.reg := rfl
@[simp] theorem State.setDmaBusy_addr : (s.setDmaBusy).addr = s.addr := rfl
@[simp] theorem State.setDmaBusy_code : (s.setDmaBusy).code = s.code := rfl
@[simp] theorem State.setDmaBusy_pending : (s.setDmaBusy).pending = s.pending := rfl
@[simp] theorem State.setDmaBusy_ctrlLatch : (s.setDmaBusy).ctrlLatch = s.ctrlLatch := rfl
@[simp] theorem State.setDmaBusy_readBuf : (s.setDmaBusy).readBuf = s.readBuf := rfl
@[simp] theorem State.setDmaBusy_ggLatch : (s.setDmaBusy).ggLatch = s.ggLatch := rfl
@[simp] theorem State.setDmaBusy_fifoCount : (s.setDmaBusy).fifoCount = s.fifoCount := rfl
@[simp] theorem State.setDmaBusy_fifoLastWrite : (s.setDmaBusy).fifoLastWrite = s.fifoLastWrite := rfl
@[simp] theorem State.setDmaBusy_fifoLatency : (s.setDmaBusy).fifoLatency = s.fifoLatency := rfl
@[simp] theorem State.setDmaBusy_dmaType : (s.setDmaBusy).dmaType = s.dmaType := rfl
@[simp] theorem State.setDmaBusy_dmaRemaining : (s.setDmaBusy).dmaRemaining = s.dmaRemaining := rfl
@[simp] theorem State.setDmaBusy_dmaSource : (s.setDmaBusy).dmaSource = s.dmaSource := rfl
@[simp] theorem State.setDmaBusy_fillArmed : (s.setDmaBusy).fillArmed = s.fillArmed := rfl
@[simp] theorem State.setDmaBusy_fillByte : (s.setDmaBusy).fillByte = s.fillByte := rfl
@[simp] theorem State.setDmaBusy_dmaEndCycles : (s.setDmaBusy).dmaEndCycles = s.dmaEndCycles := rfl
@[simp] theorem State.setDmaBusy_deferredCtrl : (s.setDmaBusy).deferredCtrl = s.deferredCtrl := rfl
@[simp] theorem State.setDmaBusy_hvLatch : (s.setDmaBusy).hvLatch = s.hvLatch := rfl
@[simp] theorem State.setDmaBusy_lastT : (s.setDmaBusy).lastT = s.lastT := rfl
@[simp] theorem State.setDmaBusy_vram : (s.setDmaBusy).vram = s.vram := rfl
@[simp] theorem State.setDmaBusy_cram : (s.setDmaBusy).cram = s.cram := rfl
@[simp] theorem State.setDmaBusy_vsram : (s.setDmaBusy).vsram = s.vsram := rfl
@[simp] theorem State.setDmaBusy_sat : (s.setDmaBusy).sat = s.sat := rfl
@[simp] theorem State.setDmaBusy_dirty : (s.setDmaBusy).dirty = s.dirty := rfl
@[simp] theorem State.setDmaBusy_renderMode : (s.setDmaBusy).renderMode = s.renderMode := rfl
@[simp] theorem State.setDmaBusy_displayLines : (s.setDmaBusy).displayLines = s.displayLines := rfl
@[simp] theorem State.setDmaBusy_backdropColor : (s.setDmaBusy).backdropColor = s.backdropColor := rfl
@[simp] theorem State.setDmaBusy_faulted : (s.setDmaBusy).faulted = s.faulted := rfl
@[simp] theorem State.setDmaBusy_refused : (s.setDmaBusy).refused = s.refused := rfl
@[simp] theorem State.setDmaBusy_cpuStuck : (s.setDmaBusy).cpuStuck = s.cpuStuck := rfl
@[simp] theorem State.setDmaBusy_inbox : (s.setDmaBusy).inbox = s.inbox := rfl
@[simp] theorem State.setDmaBusy_draws : (s.setDmaBusy).draws = s.draws := rfl
@[simp] theorem State.setDmaBusy_out : (s.setDmaBusy).out = s.out := rfl
@[simp] theorem State.setDmaBusy_rd (j : BitVec 5) : (s.setDmaBusy).rd j = s.rd j := by
  simp [State.rd]
@[simp] theorem State.setDmaBusy_m5 : (s.setDmaBusy).m5 = s.m5 := by simp [State.m5]
@[simp] theorem State.setDmaBusy_h40 : (s.setDmaBusy).h40 = s.h40 := by simp [State.h40, State.m5]
@[simp] theorem State.setDmaBusy_inc : (s.setDmaBusy).inc = s.inc := by
  unfold State.inc; simp only [State.setDmaBusy_m5, State.setDmaBusy_rd]
@[simp] theorem State.setDmaBusy_dispEn : (s.setDmaBusy).dispEn = s.dispEn := by simp [State.dispEn]
@[simp] theorem State.setDmaBusy_backdropIdx : (s.setDmaBusy).backdropIdx = s.backdropIdx := by
  unfold State.backdropIdx; simp only [State.setDmaBusy_m5, State.setDmaBusy_rd]
@[simp] theorem State.setDmaBusy_satRange : (s.setDmaBusy).satRange = s.satRange := State.satRange_congr (by simp) (by simp)
@[simp] theorem State.setDmaBusy_logIdx (x : Word) : (s.setDmaBusy).logIdx x = s.logIdx x := by
  unfold State.logIdx; rw [State.setDmaBusy_cfg]
@[simp] theorem State.setDmaBusy_inSat (x : Word) : (s.setDmaBusy).inSat x = s.inSat x := by
  simp [State.inSat]
@[simp] theorem State.setDmaBusy_satIdx (x : Word) : (s.setDmaBusy).satIdx x = s.satIdx x := by
  simp [State.satIdx]
@[simp] theorem State.setDmaBusy_target : (s.setDmaBusy).target = s.target := by simp [State.target]

/-! ### statusClear -/

@[simp] theorem State.statusClear_cfg : (s.statusClear).cfg = s.cfg := rfl
@[simp] theorem State.statusClear_reg : (s.statusClear).reg = s.reg := rfl
@[simp] theorem State.statusClear_addr : (s.statusClear).addr = s.addr := rfl
@[simp] theorem State.statusClear_code : (s.statusClear).code = s.code := rfl
@[simp] theorem State.statusClear_ctrlLatch : (s.statusClear).ctrlLatch = s.ctrlLatch := rfl
@[simp] theorem State.statusClear_readBuf : (s.statusClear).readBuf = s.readBuf := rfl
@[simp] theorem State.statusClear_ggLatch : (s.statusClear).ggLatch = s.ggLatch := rfl
@[simp] theorem State.statusClear_fifoCount : (s.statusClear).fifoCount = s.fifoCount := rfl
@[simp] theorem State.statusClear_fifoLastWrite : (s.statusClear).fifoLastWrite = s.fifoLastWrite := rfl
@[simp] theorem State.statusClear_fifoLatency : (s.statusClear).fifoLatency = s.fifoLatency := rfl
@[simp] theorem State.statusClear_dmaType : (s.statusClear).dmaType = s.dmaType := rfl
@[simp] theorem State.statusClear_dmaRemaining : (s.statusClear).dmaRemaining = s.dmaRemaining := rfl
@[simp] theorem State.statusClear_dmaSource : (s.statusClear).dmaSource = s.dmaSource := rfl
@[simp] theorem State.statusClear_fillArmed : (s.statusClear).fillArmed = s.fillArmed := rfl
@[simp] theorem State.statusClear_fillByte : (s.statusClear).fillByte = s.fillByte := rfl
@[simp] theorem State.statusClear_dmaEndCycles : (s.statusClear).dmaEndCycles = s.dmaEndCycles := rfl
@[simp] theorem State.statusClear_deferredCtrl : (s.statusClear).deferredCtrl = s.deferredCtrl := rfl
@[simp] theorem State.statusClear_hvLatch : (s.statusClear).hvLatch = s.hvLatch := rfl
@[simp] theorem State.statusClear_lastT : (s.statusClear).lastT = s.lastT := rfl
@[simp] theorem State.statusClear_vram : (s.statusClear).vram = s.vram := rfl
@[simp] theorem State.statusClear_cram : (s.statusClear).cram = s.cram := rfl
@[simp] theorem State.statusClear_vsram : (s.statusClear).vsram = s.vsram := rfl
@[simp] theorem State.statusClear_sat : (s.statusClear).sat = s.sat := rfl
@[simp] theorem State.statusClear_dirty : (s.statusClear).dirty = s.dirty := rfl
@[simp] theorem State.statusClear_renderMode : (s.statusClear).renderMode = s.renderMode := rfl
@[simp] theorem State.statusClear_displayLines : (s.statusClear).displayLines = s.displayLines := rfl
@[simp] theorem State.statusClear_backdropColor : (s.statusClear).backdropColor = s.backdropColor := rfl
@[simp] theorem State.statusClear_faulted : (s.statusClear).faulted = s.faulted := rfl
@[simp] theorem State.statusClear_refused : (s.statusClear).refused = s.refused := rfl
@[simp] theorem State.statusClear_cpuStuck : (s.statusClear).cpuStuck = s.cpuStuck := rfl
@[simp] theorem State.statusClear_inbox : (s.statusClear).inbox = s.inbox := rfl
@[simp] theorem State.statusClear_draws : (s.statusClear).draws = s.draws := rfl
@[simp] theorem State.statusClear_out : (s.statusClear).out = s.out := rfl
@[simp] theorem State.statusClear_rd (j : BitVec 5) : (s.statusClear).rd j = s.rd j := by
  simp [State.rd]
@[simp] theorem State.statusClear_m5 : (s.statusClear).m5 = s.m5 := by simp [State.m5]
@[simp] theorem State.statusClear_h40 : (s.statusClear).h40 = s.h40 := by simp [State.h40, State.m5]
@[simp] theorem State.statusClear_inc : (s.statusClear).inc = s.inc := by
  unfold State.inc; simp only [State.statusClear_m5, State.statusClear_rd]
@[simp] theorem State.statusClear_dispEn : (s.statusClear).dispEn = s.dispEn := by simp [State.dispEn]
@[simp] theorem State.statusClear_backdropIdx : (s.statusClear).backdropIdx = s.backdropIdx := by
  unfold State.backdropIdx; simp only [State.statusClear_m5, State.statusClear_rd]
@[simp] theorem State.statusClear_satRange : (s.statusClear).satRange = s.satRange := State.satRange_congr (by simp) (by simp)
@[simp] theorem State.statusClear_logIdx (x : Word) : (s.statusClear).logIdx x = s.logIdx x := by
  unfold State.logIdx; rw [State.statusClear_cfg]
@[simp] theorem State.statusClear_inSat (x : Word) : (s.statusClear).inSat x = s.inSat x := by
  simp [State.inSat]
@[simp] theorem State.statusClear_satIdx (x : Word) : (s.statusClear).satIdx x = s.satIdx x := by
  simp [State.satIdx]
@[simp] theorem State.statusClear_target : (s.statusClear).target = s.target := by simp [State.target]

/-! ### recomputeDerived -/

@[simp] theorem State.recomputeDerived_cfg : (s.recomputeDerived).cfg = s.cfg := rfl
@[simp] theorem State.recomputeDerived_reg : (s.recomputeDerived).reg = s.reg := rfl
@[simp] theorem State.recomputeDerived_addr : (s.recomputeDerived).addr = s.addr := rfl
@[simp] theorem State.recomputeDerived_code : (s.recomputeDerived).code = s.code := rfl
@[simp] theorem State.recomputeDerived_pending : (s.recomputeDerived).pending = s.pending := rfl
@[simp] theorem State.recomputeDerived_ctrlLatch : (s.recomputeDerived).ctrlLatch = s.ctrlLatch := rfl
@[simp] theorem State.recomputeDerived_readBuf : (s.recomputeDerived).readBuf = s.readBuf := rfl
@[simp] theorem State.recomputeDerived_ggLatch : (s.recomputeDerived).ggLatch = s.ggLatch := rfl
@[simp] theorem State.recomputeDerived_status : (s.recomputeDerived).status = s.status := rfl
@[simp] theorem State.recomputeDerived_fifoCount : (s.recomputeDerived).fifoCount = s.fifoCount := rfl
@[simp] theorem State.recomputeDerived_fifoLastWrite : (s.recomputeDerived).fifoLastWrite = s.fifoLastWrite := rfl
@[simp] theorem State.recomputeDerived_fifoLatency : (s.recomputeDerived).fifoLatency = s.fifoLatency := rfl
@[simp] theorem State.recomputeDerived_dmaType : (s.recomputeDerived).dmaType = s.dmaType := rfl
@[simp] theorem State.recomputeDerived_dmaRemaining : (s.recomputeDerived).dmaRemaining = s.dmaRemaining := rfl
@[simp] theorem State.recomputeDerived_dmaSource : (s.recomputeDerived).dmaSource = s.dmaSource := rfl
@[simp] theorem State.recomputeDerived_fillArmed : (s.recomputeDerived).fillArmed = s.fillArmed := rfl
@[simp] theorem State.recomputeDerived_fillByte : (s.recomputeDerived).fillByte = s.fillByte := rfl
@[simp] theorem State.recomputeDerived_dmaEndCycles : (s.recomputeDerived).dmaEndCycles = s.dmaEndCycles := rfl
@[simp] theorem State.recomputeDerived_deferredCtrl : (s.recomputeDerived).deferredCtrl = s.deferredCtrl := rfl
@[simp] theorem State.recomputeDerived_hvLatch : (s.recomputeDerived).hvLatch = s.hvLatch := rfl
@[simp] theorem State.recomputeDerived_lastT : (s.recomputeDerived).lastT = s.lastT := rfl
@[simp] theorem State.recomputeDerived_vram : (s.recomputeDerived).vram = s.vram := rfl
@[simp] theorem State.recomputeDerived_cram : (s.recomputeDerived).cram = s.cram := rfl
@[simp] theorem State.recomputeDerived_vsram : (s.recomputeDerived).vsram = s.vsram := rfl
@[simp] theorem State.recomputeDerived_sat : (s.recomputeDerived).sat = s.sat := rfl
@[simp] theorem State.recomputeDerived_dirty : (s.recomputeDerived).dirty = s.dirty := rfl
@[simp] theorem State.recomputeDerived_faulted : (s.recomputeDerived).faulted = s.faulted := rfl
@[simp] theorem State.recomputeDerived_refused : (s.recomputeDerived).refused = s.refused := rfl
@[simp] theorem State.recomputeDerived_cpuStuck : (s.recomputeDerived).cpuStuck = s.cpuStuck := rfl
@[simp] theorem State.recomputeDerived_inbox : (s.recomputeDerived).inbox = s.inbox := rfl
@[simp] theorem State.recomputeDerived_draws : (s.recomputeDerived).draws = s.draws := rfl
@[simp] theorem State.recomputeDerived_out : (s.recomputeDerived).out = s.out := rfl
@[simp] theorem State.recomputeDerived_rd (j : BitVec 5) : (s.recomputeDerived).rd j = s.rd j := by
  simp [State.rd]
@[simp] theorem State.recomputeDerived_m5 : (s.recomputeDerived).m5 = s.m5 := by simp [State.m5]
@[simp] theorem State.recomputeDerived_h40 : (s.recomputeDerived).h40 = s.h40 := by simp [State.h40, State.m5]
@[simp] theorem State.recomputeDerived_inc : (s.recomputeDerived).inc = s.inc := by
  unfold State.inc; simp only [State.recomputeDerived_m5, State.recomputeDerived_rd]
@[simp] theorem State.recomputeDerived_dispEn : (s.recomputeDerived).dispEn = s.dispEn := by simp [State.dispEn]
@[simp] theorem State.recomputeDerived_backdropIdx : (s.recomputeDerived).backdropIdx = s.backdropIdx := by
  unfold State.backdropIdx; simp only [State.recomputeDerived_m5, State.recomputeDerived_rd]
@[simp] theorem State.recomputeDerived_satRange : (s.recomputeDerived).satRange = s.satRange := State.satRange_congr (by simp) (by simp)
@[simp] theorem State.recomputeDerived_logIdx (x : Word) : (s.recomputeDerived).logIdx x = s.logIdx x := by
  unfold State.logIdx; rw [State.recomputeDerived_cfg]
@[simp] theorem State.recomputeDerived_inSat (x : Word) : (s.recomputeDerived).inSat x = s.inSat x := by
  simp [State.inSat]
@[simp] theorem State.recomputeDerived_satIdx (x : Word) : (s.recomputeDerived).satIdx x = s.satIdx x := by
  simp [State.satIdx]
@[simp] theorem State.recomputeDerived_target : (s.recomputeDerived).target = s.target := by simp [State.target]

/-! ### relatch -/

@[simp] theorem State.relatch_cfg : (s.relatch).cfg = s.cfg := rfl
@[simp] theorem State.relatch_reg : (s.relatch).reg = s.reg := rfl
@[simp] theorem State.relatch_addr : (s.relatch).addr = s.addr := rfl
@[simp] theorem State.relatch_code : (s.relatch).code = s.code := rfl
@[simp] theorem State.relatch_pending : (s.relatch).pending = s.pending := rfl
@[simp] theorem State.relatch_ctrlLatch : (s.relatch).ctrlLatch = s.ctrlLatch := rfl
@[simp] theorem State.relatch_readBuf : (s.relatch).readBuf = s.readBuf := rfl
@[simp] theorem State.relatch_ggLatch : (s.relatch).ggLatch = s.ggLatch := rfl
@[simp] theorem State.relatch_status : (s.relatch).status = s.status := rfl
@[simp] theorem State.relatch_fifoCount : (s.relatch).fifoCount = s.fifoCount := rfl
@[simp] theorem State.relatch_fifoLastWrite : (s.relatch).fifoLastWrite = s.fifoLastWrite := rfl
@[simp] theorem State.relatch_dmaType : (s.relatch).dmaType = s.dmaType := rfl
@[simp] theorem State.relatch_dmaRemaining : (s.relatch).dmaRemaining = s.dmaRemaining := rfl
@[simp] theorem State.relatch_dmaSource : (s.relatch).dmaSource = s.dmaSource := rfl
@[simp] theorem State.relatch_fillArmed : (s.relatch).fillArmed = s.fillArmed := rfl
@[simp] theorem State.relatch_fillByte : (s.relatch).fillByte = s.fillByte := rfl
@[simp] theorem State.relatch_dmaEndCycles : (s.relatch).dmaEndCycles = s.dmaEndCycles := rfl
@[simp] theorem State.relatch_deferredCtrl : (s.relatch).deferredCtrl = s.deferredCtrl := rfl
@[simp] theorem State.relatch_hvLatch : (s.relatch).hvLatch = s.hvLatch := rfl
@[simp] theorem State.relatch_lastT : (s.relatch).lastT = s.lastT := rfl
@[simp] theorem State.relatch_vram : (s.relatch).vram = s.vram := rfl
@[simp] theorem State.relatch_cram : (s.relatch).cram = s.cram := rfl
@[simp] theorem State.relatch_vsram : (s.relatch).vsram = s.vsram := rfl
@[simp] theorem State.relatch_sat : (s.relatch).sat = s.sat := rfl
@[simp] theorem State.relatch_dirty : (s.relatch).dirty = s.dirty := rfl
@[simp] theorem State.relatch_renderMode : (s.relatch).renderMode = s.renderMode := rfl
@[simp] theorem State.relatch_displayLines : (s.relatch).displayLines = s.displayLines := rfl
@[simp] theorem State.relatch_backdropColor : (s.relatch).backdropColor = s.backdropColor := rfl
@[simp] theorem State.relatch_faulted : (s.relatch).faulted = s.faulted := rfl
@[simp] theorem State.relatch_refused : (s.relatch).refused = s.refused := rfl
@[simp] theorem State.relatch_cpuStuck : (s.relatch).cpuStuck = s.cpuStuck := rfl
@[simp] theorem State.relatch_inbox : (s.relatch).inbox = s.inbox := rfl
@[simp] theorem State.relatch_draws : (s.relatch).draws = s.draws := rfl
@[simp] theorem State.relatch_out : (s.relatch).out = s.out := rfl
@[simp] theorem State.relatch_rd (j : BitVec 5) : (s.relatch).rd j = s.rd j := by
  simp [State.rd]
@[simp] theorem State.relatch_m5 : (s.relatch).m5 = s.m5 := by simp [State.m5]
@[simp] theorem State.relatch_h40 : (s.relatch).h40 = s.h40 := by simp [State.h40, State.m5]
@[simp] theorem State.relatch_inc : (s.relatch).inc = s.inc := by
  unfold State.inc; simp only [State.relatch_m5, State.relatch_rd]
@[simp] theorem State.relatch_dispEn : (s.relatch).dispEn = s.dispEn := by simp [State.dispEn]
@[simp] theorem State.relatch_backdropIdx : (s.relatch).backdropIdx = s.backdropIdx := by
  unfold State.backdropIdx; simp only [State.relatch_m5, State.relatch_rd]
@[simp] theorem State.relatch_satRange : (s.relatch).satRange = s.satRange := State.satRange_congr (by simp) (by simp)
@[simp] theorem State.relatch_logIdx (x : Word) : (s.relatch).logIdx x = s.logIdx x := by
  unfold State.logIdx; rw [State.relatch_cfg]
@[simp] theorem State.relatch_inSat (x : Word) : (s.relatch).inSat x = s.inSat x := by
  simp [State.inSat]
@[simp] theorem State.relatch_satIdx (x : Word) : (s.relatch).satIdx x = s.satIdx x := by
  simp [State.satIdx]
@[simp] theorem State.relatch_target : (s.relatch).target = s.target := by simp [State.target]

/-! ### effectA1 -/

@[simp] theorem State.effectA1_cfg (cd : BitVec 2) (a : BitVec 14) : (s.effectA1 cd a).cfg = s.cfg := rfl
@[simp] theorem State.effectA1_reg (cd : BitVec 2) (a : BitVec 14) : (s.effectA1 cd a).reg = s.reg := rfl
@[simp] theorem State.effectA1_ctrlLatch (cd : BitVec 2) (a : BitVec 14) : (s.effectA1 cd a).ctrlLatch = s.ctrlLatch := rfl
@[simp] theorem State.effectA1_readBuf (cd : BitVec 2) (a : BitVec 14) : (s.effectA1 cd a).readBuf = s.readBuf := rfl
@[simp] theorem State.effectA1_ggLatch (cd : BitVec 2) (a : BitVec 14) : (s.effectA1 cd a).ggLatch = s.ggLatch := rfl
@[simp] theorem State.effectA1_status (cd : BitVec 2) (a : BitVec 14) : (s.effectA1 cd a).status = s.status := rfl
@[simp] theorem State.effectA1_fifoCount (cd : BitVec 2) (a : BitVec 14) : (s.effectA1 cd a).fifoCount = s.fifoCount := rfl
@[simp] theorem State.effectA1_fifoLastWrite (cd : BitVec 2) (a : BitVec 14) : (s.effectA1 cd a).fifoLastWrite = s.fifoLastWrite := rfl
@[simp] theorem State.effectA1_fifoLatency (cd : BitVec 2) (a : BitVec 14) : (s.effectA1 cd a).fifoLatency = s.fifoLatency := rfl
@[simp] theorem State.effectA1_dmaType (cd : BitVec 2) (a : BitVec 14) : (s.effectA1 cd a).dmaType = s.dmaType := rfl
@[simp] theorem State.effectA1_dmaRemaining (cd : BitVec 2) (a : BitVec 14) : (s.effectA1 cd a).dmaRemaining = s.dmaRemaining := rfl
@[simp] theorem State.effectA1_dmaSource (cd : BitVec 2) (a : BitVec 14) : (s.effectA1 cd a).dmaSource = s.dmaSource := rfl
@[simp] theorem State.effectA1_fillArmed (cd : BitVec 2) (a : BitVec 14) : (s.effectA1 cd a).fillArmed = s.fillArmed := rfl
@[simp] theorem State.effectA1_fillByte (cd : BitVec 2) (a : BitVec 14) : (s.effectA1 cd a).fillByte = s.fillByte := rfl
@[simp] theorem State.effectA1_dmaEndCycles (cd : BitVec 2) (a : BitVec 14) : (s.effectA1 cd a).dmaEndCycles = s.dmaEndCycles := rfl
@[simp] theorem State.effectA1_deferredCtrl (cd : BitVec 2) (a : BitVec 14) : (s.effectA1 cd a).deferredCtrl = s.deferredCtrl := rfl
@[simp] theorem State.effectA1_hvLatch (cd : BitVec 2) (a : BitVec 14) : (s.effectA1 cd a).hvLatch = s.hvLatch := rfl
@[simp] theorem State.effectA1_lastT (cd : BitVec 2) (a : BitVec 14) : (s.effectA1 cd a).lastT = s.lastT := rfl
@[simp] theorem State.effectA1_vram (cd : BitVec 2) (a : BitVec 14) : (s.effectA1 cd a).vram = s.vram := rfl
@[simp] theorem State.effectA1_cram (cd : BitVec 2) (a : BitVec 14) : (s.effectA1 cd a).cram = s.cram := rfl
@[simp] theorem State.effectA1_vsram (cd : BitVec 2) (a : BitVec 14) : (s.effectA1 cd a).vsram = s.vsram := rfl
@[simp] theorem State.effectA1_sat (cd : BitVec 2) (a : BitVec 14) : (s.effectA1 cd a).sat = s.sat := rfl
@[simp] theorem State.effectA1_dirty (cd : BitVec 2) (a : BitVec 14) : (s.effectA1 cd a).dirty = s.dirty := rfl
@[simp] theorem State.effectA1_renderMode (cd : BitVec 2) (a : BitVec 14) : (s.effectA1 cd a).renderMode = s.renderMode := rfl
@[simp] theorem State.effectA1_displayLines (cd : BitVec 2) (a : BitVec 14) : (s.effectA1 cd a).displayLines = s.displayLines := rfl
@[simp] theorem State.effectA1_backdropColor (cd : BitVec 2) (a : BitVec 14) : (s.effectA1 cd a).backdropColor = s.backdropColor := rfl
@[simp] theorem State.effectA1_faulted (cd : BitVec 2) (a : BitVec 14) : (s.effectA1 cd a).faulted = s.faulted := rfl
@[simp] theorem State.effectA1_refused (cd : BitVec 2) (a : BitVec 14) : (s.effectA1 cd a).refused = s.refused := rfl
@[simp] theorem State.effectA1_cpuStuck (cd : BitVec 2) (a : BitVec 14) : (s.effectA1 cd a).cpuStuck = s.cpuStuck := rfl
@[simp] theorem State.effectA1_inbox (cd : BitVec 2) (a : BitVec 14) : (s.effectA1 cd a).inbox = s.inbox := rfl
@[simp] theorem State.effectA1_draws (cd : BitVec 2) (a : BitVec 14) : (s.effectA1 cd a).draws = s.draws := rfl
@[simp] theorem State.effectA1_out (cd : BitVec 2) (a : BitVec 14) : (s.effectA1 cd a).out = s.out := rfl
@[simp] theorem State.effectA1_rd (cd : BitVec 2) (a : BitVec 14) (j : BitVec 5) : (s.effectA1 cd a).rd j = s.rd j := by
  simp [State.rd]
@[simp] theorem State.effectA1_m5 (cd : BitVec 2) (a : BitVec 14) : (s.effectA1 cd a).m5 = s.m5 := by simp [State.m5]
@[simp] theorem State.effectA1_h40 (cd : BitVec 2) (a : BitVec 14) : (s.effectA1 cd a).h40 = s.h40 := by simp [State.h40, State.m5]
@[simp] theorem State.effectA1_inc (cd : BitVec 2) (a : BitVec 14) : (s.effectA1 cd a).inc = s.inc := by
  unfold State.inc; simp only [State.effectA1_m5, State.effectA1_rd]
@[simp] theorem State.effectA1_dispEn (cd : BitVec 2) (a : BitVec 14) : (s.effectA1 cd a).dispEn = s.dispEn := by simp [State.dispEn]
@[simp] theorem State.effectA1_backdropIdx (cd : BitVec 2) (a : BitVec 14) : (s.effectA1 cd a).backdropIdx = s.backdropIdx := by
  unfold State.backdropIdx; simp only [State.effectA1_m5, State.effectA1_rd]
@[simp] theorem State.effectA1_satRange (cd : BitVec 2) (a : BitVec 14) : (s.effectA1 cd a).satRange = s.satRange := State.satRange_congr (by simp) (by simp)
@[simp] theorem State.effectA1_logIdx (cd : BitVec 2) (a : BitVec 14) (x : Word) : (s.effectA1 cd a).logIdx x = s.logIdx x := by
  unfold State.logIdx; rw [State.effectA1_cfg]
@[simp] theorem State.effectA1_inSat (cd : BitVec 2) (a : BitVec 14) (x : Word) : (s.effectA1 cd a).inSat x = s.inSat x := by
  simp [State.inSat]
@[simp] theorem State.effectA1_satIdx (cd : BitVec 2) (a : BitVec 14) (x : Word) : (s.effectA1 cd a).satIdx x = s.satIdx x := by
  simp [State.satIdx]

/-! ### latchA2 -/

@[simp] theorem State.latchA2_cfg (cd : BitVec 4) (a : BitVec 2) : (s.latchA2 cd a).cfg = s.cfg := rfl
@[simp] theorem State.latchA2_reg (cd : BitVec 4) (a : BitVec 2) : (s.latchA2 cd a).reg = s.reg := rfl
@[simp] theorem State.latchA2_ctrlLatch (cd : BitVec 4) (a : BitVec 2) : (s.latchA2 cd a).ctrlLatch = s.ctrlLatch := rfl
@[simp] theorem State.latchA2_readBuf (cd : BitVec 4) (a : BitVec 2) : (s.latchA2 cd a).readBuf = s.readBuf := rfl
@[simp] theorem State.latchA2_ggLatch (cd : BitVec 4) (a : BitVec 2) : (s.latchA2 cd a).ggLatch = s.ggLatch := rfl
@[simp] theorem State.latchA2_status (cd : BitVec 4) (a : BitVec 2) : (s.latchA2 cd a).status = s.status := rfl
@[simp] theorem State.latchA2_fifoCount (cd : BitVec 4) (a : BitVec 2) : (s.latchA2 cd a).fifoCount = s.fifoCount := rfl
@[simp] theorem State.latchA2_fifoLastWrite (cd : BitVec 4) (a : BitVec 2) : (s.latchA2 cd a).fifoLastWrite = s.fifoLastWrite := rfl
@[simp] theorem State.latchA2_fifoLatency (cd : BitVec 4) (a : BitVec 2) : (s.latchA2 cd a).fifoLatency = s.fifoLatency := rfl
@[simp] theorem State.latchA2_dmaType (cd : BitVec 4) (a : BitVec 2) : (s.latchA2 cd a).dmaType = s.dmaType := rfl
@[simp] theorem State.latchA2_dmaRemaining (cd : BitVec 4) (a : BitVec 2) : (s.latchA2 cd a).dmaRemaining = s.dmaRemaining := rfl
@[simp] theorem State.latchA2_dmaSource (cd : BitVec 4) (a : BitVec 2) : (s.latchA2 cd a).dmaSource = s.dmaSource := rfl
@[simp] theorem State.latchA2_fillArmed (cd : BitVec 4) (a : BitVec 2) : (s.latchA2 cd a).fillArmed = s.fillArmed := rfl
@[simp] theorem State.latchA2_fillByte (cd : BitVec 4) (a : BitVec 2) : (s.latchA2 cd a).fillByte = s.fillByte := rfl
@[simp] theorem State.latchA2_dmaEndCycles (cd : BitVec 4) (a : BitVec 2) : (s.latchA2 cd a).dmaEndCycles = s.dmaEndCycles := rfl
@[simp] theorem State.latchA2_deferredCtrl (cd : BitVec 4) (a : BitVec 2) : (s.latchA2 cd a).deferredCtrl = s.deferredCtrl := rfl
@[simp] theorem State.latchA2_hvLatch (cd : BitVec 4) (a : BitVec 2) : (s.latchA2 cd a).hvLatch = s.hvLatch := rfl
@[simp] theorem State.latchA2_lastT (cd : BitVec 4) (a : BitVec 2) : (s.latchA2 cd a).lastT = s.lastT := rfl
@[simp] theorem State.latchA2_vram (cd : BitVec 4) (a : BitVec 2) : (s.latchA2 cd a).vram = s.vram := rfl
@[simp] theorem State.latchA2_cram (cd : BitVec 4) (a : BitVec 2) : (s.latchA2 cd a).cram = s.cram := rfl
@[simp] theorem State.latchA2_vsram (cd : BitVec 4) (a : BitVec 2) : (s.latchA2 cd a).vsram = s.vsram := rfl
@[simp] theorem State.latchA2_sat (cd : BitVec 4) (a : BitVec 2) : (s.latchA2 cd a).sat = s.sat := rfl
@[simp] theorem State.latchA2_dirty (cd : BitVec 4) (a : BitVec 2) : (s.latchA2 cd a).dirty = s.dirty := rfl
@[simp] theorem State.latchA2_renderMode (cd : BitVec 4) (a : BitVec 2) : (s.latchA2 cd a).renderMode = s.renderMode := rfl
@[simp] theorem State.latchA2_displayLines (cd : BitVec 4) (a : BitVec 2) : (s.latchA2 cd a).displayLines = s.displayLines := rfl
@[simp] theorem State.latchA2_backdropColor (cd : BitVec 4) (a : BitVec 2) : (s.latchA2 cd a).backdropColor = s.backdropColor := rfl
@[simp] theorem State.latchA2_faulted (cd : BitVec 4) (a : BitVec 2) : (s.latchA2 cd a).faulted = s.faulted := rfl
@[simp] theorem State.latchA2_refused (cd : BitVec 4) (a : BitVec 2) : (s.latchA2 cd a).refused = s.refused := rfl
@[simp] theorem State.latchA2_cpuStuck (cd : BitVec 4) (a : BitVec 2) : (s.latchA2 cd a).cpuStuck = s.cpuStuck := rfl
@[simp] theorem State.latchA2_inbox (cd : BitVec 4) (a : BitVec 2) : (s.latchA2 cd a).inbox = s.inbox := rfl
@[simp] theorem State.latchA2_draws (cd : BitVec 4) (a : BitVec 2) : (s.latchA2 cd a).draws = s.draws := rfl
@[simp] theorem State.latchA2_out (cd : BitVec 4) (a : BitVec 2) : (s.latchA2 cd a).out = s.out := rfl
@[simp] theorem State.latchA2_rd (cd : BitVec 4) (a : BitVec 2) (j : BitVec 5) : (s.latchA2 cd a).rd j = s.rd j := by
  simp [State.rd]
@[simp] theorem State.latchA2_m5 (cd : BitVec 4) (a : BitVec 2) : (s.latchA2 cd a).m5 = s.m5 := by simp [State.m5]
@[simp] theorem State.latchA2_h40 (cd : BitVec 4) (a : BitVec 2) : (s.latchA2 cd a).h40 = s.h40 := by simp [State.h40, State.m5]
@[simp] theorem State.latchA2_inc (cd : BitVec 4) (a : BitVec 2) : (s.latchA2 cd a).inc = s.inc := by
  unfold State.inc; simp only [State.latchA2_m5, State.latchA2_rd]
@[simp] theorem State.latchA2_dispEn (cd : BitVec 4) (a : BitVec 2) : (s.latchA2 cd a).dispEn = s.dispEn := by simp [State.dispEn]
@[simp] theorem State.latchA2_backdropIdx (cd : BitVec 4) (a : BitVec 2) : (s.latchA2 cd a).backdropIdx = s.backdropIdx := by
  unfold State.backdropIdx; simp only [State.latchA2_m5, State.latchA2_rd]
@[simp] theorem State.latchA2_satRange (cd : BitVec 4) (a : BitVec 2) : (s.latchA2 cd a).satRange = s.satRange := State.satRange_congr (by simp) (by simp)
@[simp] theorem State.latchA2_logIdx (cd : BitVec 4) (a : BitVec 2) (x : Word) : (s.latchA2 cd a).logIdx x = s.logIdx x := by
  unfold State.logIdx; rw [State.latchA2_cfg]
@[simp] theorem State.latchA2_inSat (cd : BitVec 4) (a : BitVec 2) (x : Word) : (s.latchA2 cd a).inSat x = s.inSat x := by
  simp [State.inSat]
@[simp] theorem State.latchA2_satIdx (cd : BitVec 4) (a : BitVec 2) (x : Word) : (s.latchA2 cd a).satIdx x = s.satIdx x := by
  simp [State.satIdx]

/-! ### effectB1 -/

@[simp] theorem State.effectB1_cfg (b : Byte) : (s.effectB1 b).cfg = s.cfg := rfl
@[simp] theorem State.effectB1_reg (b : Byte) : (s.effectB1 b).reg = s.reg := rfl
@[simp] theorem State.effectB1_addr (b : Byte) : (s.effectB1 b).addr = s.addr := rfl
@[simp] theorem State.effectB1_code (b : Byte) : (s.effectB1 b).code = s.code := rfl
@[simp] theorem State.effectB1_readBuf (b : Byte) : (s.effectB1 b).readBuf = s.readBuf := rfl
@[simp] theorem State.effectB1_ggLatch (b : Byte) : (s.effectB1 b).ggLatch = s.ggLatch := rfl
@[simp] theorem State.effectB1_status (b : Byte) : (s.effectB1 b).status = s.status := rfl
@[simp] theorem State.effectB1_fifoCount (b : Byte) : (s.effectB1 b).fifoCount = s.fifoCount := rfl
@[simp] theorem State.effectB1_fifoLastWrite (b : Byte) : (s.effectB1 b).fifoLastWrite = s.fifoLastWrite := rfl
@[simp] theorem State.effectB1_fifoLatency (b : Byte) : (s.effectB1 b).fifoLatency = s.fifoLatency := rfl
@[simp] theorem State.effectB1_dmaType (b : Byte) : (s.effectB1 b).dmaType = s.dmaType := rfl
@[simp] theorem State.effectB1_dmaRemaining (b : Byte) : (s.effectB1 b).dmaRemaining = s.dmaRemaining := rfl
@[simp] theorem State.effectB1_dmaSource (b : Byte) : (s.effectB1 b).dmaSource = s.dmaSource := rfl
@[simp] theorem State.effectB1_fillArmed (b : Byte) : (s.effectB1 b).fillArmed = s.fillArmed := rfl
@[simp] theorem State.effectB1_fillByte (b : Byte) : (s.effectB1 b).fillByte = s.fillByte := rfl
@[simp] theorem State.effectB1_dmaEndCycles (b : Byte) : (s.effectB1 b).dmaEndCycles = s.dmaEndCycles := rfl
@[simp] theorem State.effectB1_deferredCtrl (b : Byte) : (s.effectB1 b).deferredCtrl = s.deferredCtrl := rfl
@[simp] theorem State.effectB1_hvLatch (b : Byte) : (s.effectB1 b).hvLatch = s.hvLatch := rfl
@[simp] theorem State.effectB1_lastT (b : Byte) : (s.effectB1 b).lastT = s.lastT := rfl
@[simp] theorem State.effectB1_vram (b : Byte) : (s.effectB1 b).vram = s.vram := rfl
@[simp] theorem State.effectB1_cram (b : Byte) : (s.effectB1 b).cram = s.cram := rfl
@[simp] theorem State.effectB1_vsram (b : Byte) : (s.effectB1 b).vsram = s.vsram := rfl
@[simp] theorem State.effectB1_sat (b : Byte) : (s.effectB1 b).sat = s.sat := rfl
@[simp] theorem State.effectB1_dirty (b : Byte) : (s.effectB1 b).dirty = s.dirty := rfl
@[simp] theorem State.effectB1_renderMode (b : Byte) : (s.effectB1 b).renderMode = s.renderMode := rfl
@[simp] theorem State.effectB1_displayLines (b : Byte) : (s.effectB1 b).displayLines = s.displayLines := rfl
@[simp] theorem State.effectB1_backdropColor (b : Byte) : (s.effectB1 b).backdropColor = s.backdropColor := rfl
@[simp] theorem State.effectB1_faulted (b : Byte) : (s.effectB1 b).faulted = s.faulted := rfl
@[simp] theorem State.effectB1_refused (b : Byte) : (s.effectB1 b).refused = s.refused := rfl
@[simp] theorem State.effectB1_cpuStuck (b : Byte) : (s.effectB1 b).cpuStuck = s.cpuStuck := rfl
@[simp] theorem State.effectB1_inbox (b : Byte) : (s.effectB1 b).inbox = s.inbox := rfl
@[simp] theorem State.effectB1_draws (b : Byte) : (s.effectB1 b).draws = s.draws := rfl
@[simp] theorem State.effectB1_out (b : Byte) : (s.effectB1 b).out = s.out := rfl
@[simp] theorem State.effectB1_rd (b : Byte) (j : BitVec 5) : (s.effectB1 b).rd j = s.rd j := by
  simp [State.rd]
@[simp] theorem State.effectB1_m5 (b : Byte) : (s.effectB1 b).m5 = s.m5 := by simp [State.m5]
@[simp] theorem State.effectB1_h40 (b : Byte) : (s.effectB1 b).h40 = s.h40 := by simp [State.h40, State.m5]
@[simp] theorem State.effectB1_inc (b : Byte) : (s.effectB1 b).inc = s.inc := by
  unfold State.inc; simp only [State.effectB1_m5, State.effectB1_rd]
@[simp] theorem State.effectB1_dispEn (b : Byte) : (s.effectB1 b).dispEn = s.dispEn := by simp [State.dispEn]
@[simp] theorem State.effectB1_backdropIdx (b : Byte) : (s.effectB1 b).backdropIdx = s.backdropIdx := by
  unfold State.backdropIdx; simp only [State.effectB1_m5, State.effectB1_rd]
@[simp] theorem State.effectB1_satRange (b : Byte) : (s.effectB1 b).satRange = s.satRange := State.satRange_congr (by simp) (by simp)
@[simp] theorem State.effectB1_logIdx (b : Byte) (x : Word) : (s.effectB1 b).logIdx x = s.logIdx x := by
  unfold State.logIdx; rw [State.effectB1_cfg]
@[simp] theorem State.effectB1_inSat (b : Byte) (x : Word) : (s.effectB1 b).inSat x = s.inSat x := by
  simp [State.inSat]
@[simp] theorem State.effectB1_satIdx (b : Byte) (x : Word) : (s.effectB1 b).satIdx x = s.satIdx x := by
  simp [State.satIdx]
@[simp] theorem State.effectB1_target (b : Byte) : (s.effectB1 b).target = s.target := by simp [State.target]

/-! ### latchB2 -/

@[simp] theorem State.latchB2_cfg (cd : BitVec 2) (a : BitVec 6) : (s.latchB2 cd a).cfg = s.cfg := rfl
@[simp] theorem State.latchB2_reg (cd : BitVec 2) (a : BitVec 6) : (s.latchB2 cd a).reg = s.reg := rfl
@[simp] theorem State.latchB2_ctrlLatch (cd : BitVec 2) (a : BitVec 6) : (s.latchB2 cd a).ctrlLatch = s.ctrlLatch := rfl
@[simp] theorem State.latchB2_readBuf (cd : BitVec 2) (a : BitVec 6) : (s.latchB2 cd a).readBuf = s.readBuf := rfl
@[simp] theorem State.latchB2_ggLatch (cd : BitVec 2) (a : BitVec 6) : (s.latchB2 cd a).ggLatch = s.ggLatch := rfl
@[simp] theorem State.latchB2_status (cd : BitVec 2) (a : BitVec 6) : (s.latchB2 cd a).status = s.status := rfl
@[simp] theorem State.latchB2_fifoCount (cd : BitVec 2) (a : BitVec 6) : (s.latchB2 cd a).fifoCount = s.fifoCount := rfl
@[simp] theorem State.latchB2_fifoLastWrite (cd : BitVec 2) (a : BitVec 6) : (s.latchB2 cd a).fifoLastWrite = s.fifoLastWrite := rfl
@[simp] theorem State.latchB2_fifoLatency (cd : BitVec 2) (a : BitVec 6) : (s.latchB2 cd a).fifoLatency = s.fifoLatency := rfl
@[simp] theorem State.latchB2_dmaType (cd : BitVec 2) (a : BitVec 6) : (s.latchB2 cd a).dmaType = s.dmaType := rfl
@[simp] theorem State.latchB2_dmaRemaining (cd : BitVec 2) (a : BitVec 6) : (s.latchB2 cd a).dmaRemaining = s.dmaRemaining := rfl
@[simp] theorem State.latchB2_dmaSource (cd : BitVec 2) (a : BitVec 6) : (s.latchB2 cd a).dmaSource = s.dmaSource := rfl
@[simp] theorem State.latchB2_fillArmed (cd : BitVec 2) (a : BitVec 6) : (s.latchB2 cd a).fillArmed = s.fillArmed := rfl
@[simp] theorem State.latchB2_fillByte (cd : BitVec 2) (a : BitVec 6) : (s.latchB2 cd a).fillByte = s.fillByte := rfl
@[simp] theorem State.latchB2_dmaEndCycles (cd : BitVec 2) (a : BitVec 6) : (s.latchB2 cd a).dmaEndCycles = s.dmaEndCycles := rfl
@[simp] theorem State.latchB2_deferredCtrl (cd : BitVec 2) (a : BitVec 6) : (s.latchB2 cd a).deferredCtrl = s.deferredCtrl := rfl
@[simp] theorem State.latchB2_hvLatch (cd : BitVec 2) (a : BitVec 6) : (s.latchB2 cd a).hvLatch = s.hvLatch := rfl
@[simp] theorem State.latchB2_lastT (cd : BitVec 2) (a : BitVec 6) : (s.latchB2 cd a).lastT = s.lastT := rfl
@[simp] theorem State.latchB2_vram (cd : BitVec 2) (a : BitVec 6) : (s.latchB2 cd a).vram = s.vram := rfl
@[simp] theorem State.latchB2_cram (cd : BitVec 2) (a : BitVec 6) : (s.latchB2 cd a).cram = s.cram := rfl
@[simp] theorem State.latchB2_vsram (cd : BitVec 2) (a : BitVec 6) : (s.latchB2 cd a).vsram = s.vsram := rfl
@[simp] theorem State.latchB2_sat (cd : BitVec 2) (a : BitVec 6) : (s.latchB2 cd a).sat = s.sat := rfl
@[simp] theorem State.latchB2_dirty (cd : BitVec 2) (a : BitVec 6) : (s.latchB2 cd a).dirty = s.dirty := rfl
@[simp] theorem State.latchB2_renderMode (cd : BitVec 2) (a : BitVec 6) : (s.latchB2 cd a).renderMode = s.renderMode := rfl
@[simp] theorem State.latchB2_displayLines (cd : BitVec 2) (a : BitVec 6) : (s.latchB2 cd a).displayLines = s.displayLines := rfl
@[simp] theorem State.latchB2_backdropColor (cd : BitVec 2) (a : BitVec 6) : (s.latchB2 cd a).backdropColor = s.backdropColor := rfl
@[simp] theorem State.latchB2_faulted (cd : BitVec 2) (a : BitVec 6) : (s.latchB2 cd a).faulted = s.faulted := rfl
@[simp] theorem State.latchB2_refused (cd : BitVec 2) (a : BitVec 6) : (s.latchB2 cd a).refused = s.refused := rfl
@[simp] theorem State.latchB2_cpuStuck (cd : BitVec 2) (a : BitVec 6) : (s.latchB2 cd a).cpuStuck = s.cpuStuck := rfl
@[simp] theorem State.latchB2_inbox (cd : BitVec 2) (a : BitVec 6) : (s.latchB2 cd a).inbox = s.inbox := rfl
@[simp] theorem State.latchB2_draws (cd : BitVec 2) (a : BitVec 6) : (s.latchB2 cd a).draws = s.draws := rfl
@[simp] theorem State.latchB2_out (cd : BitVec 2) (a : BitVec 6) : (s.latchB2 cd a).out = s.out := rfl
@[simp] theorem State.latchB2_rd (cd : BitVec 2) (a : BitVec 6) (j : BitVec 5) : (s.latchB2 cd a).rd j = s.rd j := by
  simp [State.rd]
@[simp] theorem State.latchB2_m5 (cd : BitVec 2) (a : BitVec 6) : (s.latchB2 cd a).m5 = s.m5 := by simp [State.m5]
@[simp] theorem State.latchB2_h40 (cd : BitVec 2) (a : BitVec 6) : (s.latchB2 cd a).h40 = s.h40 := by simp [State.h40, State.m5]
@[simp] theorem State.latchB2_inc (cd : BitVec 2) (a : BitVec 6) : (s.latchB2 cd a).inc = s.inc := by
  unfold State.inc; simp only [State.latchB2_m5, State.latchB2_rd]
@[simp] theorem State.latchB2_dispEn (cd : BitVec 2) (a : BitVec 6) : (s.latchB2 cd a).dispEn = s.dispEn := by simp [State.dispEn]
@[simp] theorem State.latchB2_backdropIdx (cd : BitVec 2) (a : BitVec 6) : (s.latchB2 cd a).backdropIdx = s.backdropIdx := by
  unfold State.backdropIdx; simp only [State.latchB2_m5, State.latchB2_rd]
@[simp] theorem State.latchB2_satRange (cd : BitVec 2) (a : BitVec 6) : (s.latchB2 cd a).satRange = s.satRange := State.satRange_congr (by simp) (by simp)
@[simp] theorem State.latchB2_logIdx (cd : BitVec 2) (a : BitVec 6) (x : Word) : (s.latchB2 cd a).logIdx x = s.logIdx x := by
  unfold State.logIdx; rw [State.latchB2_cfg]
@[simp] theorem State.latchB2_inSat (cd : BitVec 2) (a : BitVec 6) (x : Word) : (s.latchB2 cd a).inSat x = s.inSat x := by
  simp [State.inSat]
@[simp] theorem State.latchB2_satIdx (cd : BitVec 2) (a : BitVec 6) (x : Word) : (s.latchB2 cd a).satIdx x = s.satIdx x := by
  simp [State.satIdx]

/-! ### latchT2 -/

@[simp] theorem State.latchT2_cfg (rw : BitVec 1) (a : BitVec 6) : (s.latchT2 rw a).cfg = s.cfg := rfl
@[simp] theorem State.latchT2_reg (rw : BitVec 1) (a : BitVec 6) : (s.latchT2 rw a).reg = s.reg := rfl
@[simp] theorem State.latchT2_ctrlLatch (rw : BitVec 1) (a : BitVec 6) : (s.latchT2 rw a).ctrlLatch = s.ctrlLatch := rfl
@[simp] theorem State.latchT2_readBuf (rw : BitVec 1) (a : BitVec 6) : (s.latchT2 rw a).readBuf = s.readBuf := rfl
@[simp] theorem State.latchT2_ggLatch (rw : BitVec 1) (a : BitVec 6) : (s.latchT2 rw a).ggLatch = s.ggLatch := rfl
@[simp] theorem State.latchT2_status (rw : BitVec 1) (a : BitVec 6) : (s.latchT2 rw a).status = s.status := rfl
@[simp] theorem State.latchT2_fifoCount (rw : BitVec 1) (a : BitVec 6) : (s.latchT2 rw a).fifoCount = s.fifoCount := rfl
@[simp] theorem State.latchT2_fifoLastWrite (rw : BitVec 1) (a : BitVec 6) : (s.latchT2 rw a).fifoLastWrite = s.fifoLastWrite := rfl
@[simp] theorem State.latchT2_fifoLatency (rw : BitVec 1) (a : BitVec 6) : (s.latchT2 rw a).fifoLatency = s.fifoLatency := rfl
@[simp] theorem State.latchT2_dmaType (rw : BitVec 1) (a : BitVec 6) : (s.latchT2 rw a).dmaType = s.dmaType := rfl
@[simp] theorem State.latchT2_dmaRemaining (rw : BitVec 1) (a : BitVec 6) : (s.latchT2 rw a).dmaRemaining = s.dmaRemaining := rfl
@[simp] theorem State.latchT2_dmaSource (rw : BitVec 1) (a : BitVec 6) : (s.latchT2 rw a).dmaSource = s.dmaSource := rfl
@[simp] theorem State.latchT2_fillArmed (rw : BitVec 1) (a : BitVec 6) : (s.latchT2 rw a).fillArmed = s.fillArmed := rfl
@[simp] theorem State.latchT2_fillByte (rw : BitVec 1) (a : BitVec 6) : (s.latchT2 rw a).fillByte = s.fillByte := rfl
@[simp] theorem State.latchT2_dmaEndCycles (rw : BitVec 1) (a : BitVec 6) : (s.latchT2 rw a).dmaEndCycles = s.dmaEndCycles := rfl
@[simp] theorem State.latchT2_deferredCtrl (rw : BitVec 1) (a : BitVec 6) : (s.latchT2 rw a).deferredCtrl = s.deferredCtrl := rfl
@[simp] theorem State.latchT2_hvLatch (rw : BitVec 1) (a : BitVec 6) : (s.latchT2 rw a).hvLatch = s.hvLatch := rfl
@[simp] theorem State.latchT2_lastT (rw : BitVec 1) (a : BitVec 6) : (s.latchT2 rw a).lastT = s.lastT := rfl
@[simp] theorem State.latchT2_vram (rw : BitVec 1) (a : BitVec 6) : (s.latchT2 rw a).vram = s.vram := rfl
@[simp] theorem State.latchT2_cram (rw : BitVec 1) (a : BitVec 6) : (s.latchT2 rw a).cram = s.cram := rfl
@[simp] theorem State.latchT2_vsram (rw : BitVec 1) (a : BitVec 6) : (s.latchT2 rw a).vsram = s.vsram := rfl
@[simp] theorem State.latchT2_sat (rw : BitVec 1) (a : BitVec 6) : (s.latchT2 rw a).sat = s.sat := rfl
@[simp] theorem State.latchT2_dirty (rw : BitVec 1) (a : BitVec 6) : (s.latchT2 rw a).dirty = s.dirty := rfl
@[simp] theorem State.latchT2_renderMode (rw : BitVec 1) (a : BitVec 6) : (s.latchT2 rw a).renderMode = s.renderMode := rfl
@[simp] theorem State.latchT2_displayLines (rw : BitVec 1) (a : BitVec 6) : (s.latchT2 rw a).displayLines = s.displayLines := rfl
@[simp] theorem State.latchT2_backdropColor (rw : BitVec 1) (a : BitVec 6) : (s.latchT2 rw a).backdropColor = s.backdropColor := rfl
@[simp] theorem State.latchT2_faulted (rw : BitVec 1) (a : BitVec 6) : (s.latchT2 rw a).faulted = s.faulted := rfl
@[simp] theorem State.latchT2_refused (rw : BitVec 1) (a : BitVec 6) : (s.latchT2 rw a).refused = s.refused := rfl
@[simp] theorem State.latchT2_cpuStuck (rw : BitVec 1) (a : BitVec 6) : (s.latchT2 rw a).cpuStuck = s.cpuStuck := rfl
@[simp] theorem State.latchT2_inbox (rw : BitVec 1) (a : BitVec 6) : (s.latchT2 rw a).inbox = s.inbox := rfl
@[simp] theorem State.latchT2_draws (rw : BitVec 1) (a : BitVec 6) : (s.latchT2 rw a).draws = s.draws := rfl
@[simp] theorem State.latchT2_out (rw : BitVec 1) (a : BitVec 6) : (s.latchT2 rw a).out = s.out := rfl
@[simp] theorem State.latchT2_rd (rw : BitVec 1) (a : BitVec 6) (j : BitVec 5) : (s.latchT2 rw a).rd j = s.rd j := by
  simp [State.rd]
@[simp] theorem State.latchT2_m5 (rw : BitVec 1) (a : BitVec 6) : (s.latchT2 rw a).m5 = s.m5 := by simp [State.m5]
@[simp] theorem State.latchT2_h40 (rw : BitVec 1) (a : BitVec 6) : (s.latchT2 rw a).h40 = s.h40 := by simp [State.h40, State.m5]
@[simp] theorem State.latchT2_inc (rw : BitVec 1) (a : BitVec 6) : (s.latchT2 rw a).inc = s.inc := by
  unfold State.inc; simp only [State.latchT2_m5, State.latchT2_rd]
@[simp] theorem State.latchT2_dispEn (rw : BitVec 1) (a : BitVec 6) : (s.latchT2 rw a).dispEn = s.dispEn := by simp [State.dispEn]
@[simp] theorem State.latchT2_backdropIdx (rw : BitVec 1) (a : BitVec 6) : (s.latchT2 rw a).backdropIdx = s.backdropIdx := by
  unfold State.backdropIdx; simp only [State.latchT2_m5, State.latchT2_rd]
@[simp] theorem State.latchT2_satRange (rw : BitVec 1) (a : BitVec 6) : (s.latchT2 rw a).satRange = s.satRange := State.satRange_congr (by simp) (by simp)
@[simp] theorem State.latchT2_logIdx (rw : BitVec 1) (a : BitVec 6) (x : Word) : (s.latchT2 rw a).logIdx x = s.logIdx x := by
  unfold State.logIdx; rw [State.latchT2_cfg]
@[simp] theorem State.latchT2_inSat (rw : BitVec 1) (a : BitVec 6) (x : Word) : (s.latchT2 rw a).inSat x = s.inSat x := by
  simp [State.inSat]
@[simp] theorem State.latchT2_satIdx (rw : BitVec 1) (a : BitVec 6) (x : Word) : (s.latchT2 rw a).satIdx x = s.satIdx x := by
  simp [State.satIdx]

/-! ### refill8 -/

@[simp] theorem State.refill8_cfg : (s.refill8).cfg = s.cfg := rfl
@[simp] theorem State.refill8_reg : (s.refill8).reg = s.reg := rfl
@[simp] theorem State.refill8_code : (s.refill8).code = s.code := rfl
@[simp] theorem State.refill8_pending : (s.refill8).pending = s.pending := rfl
@[simp] theorem State.refill8_ctrlLatch : (s.refill8).ctrlLatch = s.ctrlLatch := rfl
@[simp] theorem State.refill8_ggLatch : (s.refill8).ggLatch = s.ggLatch := rfl
@[simp] theorem State.refill8_status : (s.refill8).status = s.status := rfl
@[simp] theorem State.refill8_fifoCount : (s.refill8).fifoCount = s.fifoCount := rfl
@[simp] theorem State.refill8_fifoLastWrite : (s.refill8).fifoLastWrite = s.fifoLastWrite := rfl
@[simp] theorem State.refill8_fifoLatency : (s.refill8).fifoLatency = s.fifoLatency := rfl
@[simp] theorem State.refill8_dmaType : (s.refill8).dmaType = s.dmaType := rfl
@[simp] theorem State.refill8_dmaRemaining : (s.refill8).dmaRemaining = s.dmaRemaining := rfl
@[simp] theorem State.refill8_dmaSource : (s.refill8).dmaSource = s.dmaSource := rfl
@[simp] theorem State.refill8_fillArmed : (s.refill8).fillArmed = s.fillArmed := rfl
@[simp] theorem State.refill8_fillByte : (s.refill8).fillByte = s.fillByte := rfl
@[simp] theorem State.refill8_dmaEndCycles : (s.refill8).dmaEndCycles = s.dmaEndCycles := rfl
@[simp] theorem State.refill8_deferredCtrl : (s.refill8).deferredCtrl = s.deferredCtrl := rfl
@[simp] theorem State.refill8_hvLatch : (s.refill8).hvLatch = s.hvLatch := rfl
@[simp] theorem State.refill8_lastT : (s.refill8).lastT = s.lastT := rfl
@[simp] theorem State.refill8_vram : (s.refill8).vram = s.vram := rfl
@[simp] theorem State.refill8_cram : (s.refill8).cram = s.cram := rfl
@[simp] theorem State.refill8_vsram : (s.refill8).vsram = s.vsram := rfl
@[simp] theorem State.refill8_sat : (s.refill8).sat = s.sat := rfl
@[simp] theorem State.refill8_dirty : (s.refill8).dirty = s.dirty := rfl
@[simp] theorem State.refill8_renderMode : (s.refill8).renderMode = s.renderMode := rfl
@[simp] theorem State.refill8_displayLines : (s.refill8).displayLines = s.displayLines := rfl
@[simp] theorem State.refill8_backdropColor : (s.refill8).backdropColor = s.backdropColor := rfl
@[simp] theorem State.refill8_faulted : (s.refill8).faulted = s.faulted := rfl
@[simp] theorem State.refill8_refused : (s.refill8).refused = s.refused := rfl
@[simp] theorem State.refill8_cpuStuck : (s.refill8).cpuStuck = s.cpuStuck := rfl
@[simp] theorem State.refill8_inbox : (s.refill8).inbox = s.inbox := rfl
@[simp] theorem State.refill8_draws : (s.refill8).draws = s.draws := rfl
@[simp] theorem State.refill8_out : (s.refill8).out = s.out := rfl
@[simp] theorem State.refill8_rd (j : BitVec 5) : (s.refill8).rd j = s.rd j := by
  simp [State.rd]
@[simp] theorem State.refill8_m5 : (s.refill8).m5 = s.m5 := by simp [State.m5]
@[simp] theorem State.refill8_h40 : (s.refill8).h40 = s.h40 := by simp [State.h40, State.m5]
@[simp] theorem State.refill8_inc : (s.refill8).inc = s.inc := by
  unfold State.inc; simp only [State.refill8_m5, State.refill8_rd]
@[simp] theorem State.refill8_dispEn : (s.refill8).dispEn = s.dispEn := by simp [State.dispEn]
@[simp] theorem State.refill8_backdropIdx : (s.refill8).backdropIdx = s.backdropIdx := by
  unfold State.backdropIdx; simp only [State.refill8_m5, State.refill8_rd]
@[simp] theorem State.refill8_satRange : (s.refill8).satRange = s.satRange := State.satRange_congr (by simp) (by simp)
@[simp] theorem State.refill8_logIdx (x : Word) : (s.refill8).logIdx x = s.logIdx x := by
  unfold State.logIdx; rw [State.refill8_cfg]
@[simp] theorem State.refill8_inSat (x : Word) : (s.refill8).inSat x = s.inSat x := by
  simp [State.inSat]
@[simp] theorem State.refill8_satIdx (x : Word) : (s.refill8).satIdx x = s.satIdx x := by
  simp [State.satIdx]
@[simp] theorem State.refill8_target : (s.refill8).target = s.target := by simp [State.target]

/-! ### clearLength -/

@[simp] theorem State.clearLength_cfg : (s.clearLength).cfg = s.cfg := rfl
@[simp] theorem State.clearLength_addr : (s.clearLength).addr = s.addr := rfl
@[simp] theorem State.clearLength_code : (s.clearLength).code = s.code := rfl
@[simp] theorem State.clearLength_pending : (s.clearLength).pending = s.pending := rfl
@[simp] theorem State.clearLength_ctrlLatch : (s.clearLength).ctrlLatch = s.ctrlLatch := rfl
@[simp] theorem State.clearLength_readBuf : (s.clearLength).readBuf = s.readBuf := rfl
@[simp] theorem State.clearLength_ggLatch : (s.clearLength).ggLatch = s.ggLatch := rfl
@[simp] theorem State.clearLength_status : (s.clearLength).status = s.status := rfl
@[simp] theorem State.clearLength_fifoCount : (s.clearLength).fifoCount = s.fifoCount := rfl
@[simp] theorem State.clearLength_fifoLastWrite : (s.clearLength).fifoLastWrite = s.fifoLastWrite := rfl
@[simp] theorem State.clearLength_fifoLatency : (s.clearLength).fifoLatency = s.fifoLatency := rfl
@[simp] theorem State.clearLength_dmaType : (s.clearLength).dmaType = s.dmaType := rfl
@[simp] theorem State.clearLength_dmaRemaining : (s.clearLength).dmaRemaining = s.dmaRemaining := rfl
@[simp] theorem State.clearLength_dmaSource : (s.clearLength).dmaSource = s.dmaSource := rfl
@[simp] theorem State.clearLength_fillArmed : (s.clearLength).fillArmed = s.fillArmed := rfl
@[simp] theorem State.clearLength_fillByte : (s.clearLength).fillByte = s.fillByte := rfl
@[simp] theorem State.clearLength_dmaEndCycles : (s.clearLength).dmaEndCycles = s.dmaEndCycles := rfl
@[simp] theorem State.clearLength_deferredCtrl : (s.clearLength).deferredCtrl = s.deferredCtrl := rfl
@[simp] theorem State.clearLength_hvLatch : (s.clearLength).hvLatch = s.hvLatch := rfl
@[simp] theorem State.clearLength_lastT : (s.clearLength).lastT = s.lastT := rfl
@[simp] theorem State.clearLength_vram : (s.clearLength).vram = s.vram := rfl
@[simp] theorem State.clearLength_cram : (s.clearLength).cram = s.cram := rfl
@[simp] theorem State.clearLength_vsram : (s.clearLength).vsram = s.vsram := rfl
@[simp] theorem State.clearLength_sat : (s.clearLength).sat = s.sat := rfl
@[simp] theorem State.clearLength_dirty : (s.clearLength).dirty = s.dirty := rfl
@[simp] theorem State.clearLength_renderMode : (s.clearLength).renderMode = s.renderMode := rfl
@[simp] theorem State.clearLength_displayLines : (s.clearLength).displayLines = s.displayLines := rfl
@[simp] theorem State.clearLength_backdropColor : (s.clearLength).backdropColor = s.backdropColor := rfl
@[simp] theorem State.clearLength_faulted : (s.clearLength).faulted = s.faulted := rfl
@[simp] theorem State.clearLength_refused : (s.clearLength).refused = s.refused := rfl
@[simp] theorem State.clearLength_cpuStuck : (s.clearLength).cpuStuck = s.cpuStuck := rfl
@[simp] theorem State.clearLength_inbox : (s.clearLength).inbox = s.inbox := rfl
@[simp] theorem State.clearLength_draws : (s.clearLength).draws = s.draws := rfl
@[simp] theorem State.clearLength_out : (s.clearLength).out = s.out := rfl
@[simp] theorem State.clearLength_logIdx (x : Word) : (s.clearLength).logIdx x = s.logIdx x := by
  unfold State.logIdx; rw [State.clearLength_cfg]
@[simp] theorem State.clearLength_target : (s.clearLength).target = s.target := by simp [State.target]

/-! ### satMirror -/

@[simp] theorem State.satMirror_cfg (i : Word) (v : Byte) : (s.satMirror i v).cfg = s.cfg := by unfold State.satMirror; split <;> rfl
@[simp] theorem State.satMirror_reg (i : Word) (v : Byte) : (s.satMirror i v).reg = s.reg := by unfold State.satMirror; split <;> rfl
@[simp] theorem State.satMirror_addr (i : Word) (v : Byte) : (s.satMirror i v).addr = s.addr := by unfold State.satMirror; split <;> rfl
@[simp] theorem State.satMirror_code (i : Word) (v : Byte) : (s.satMirror i v).code = s.code := by unfold State.satMirror; split <;> rfl
@[simp] theorem State.satMirror_pending (i : Word) (v : Byte) : (s.satMirror i v).pending = s.pending := by unfold State.satMirror; split <;> rfl
@[simp] theorem State.satMirror_ctrlLatch (i : Word) (v : Byte) : (s.satMirror i v).ctrlLatch = s.ctrlLatch := by unfold State.satMirror; split <;> rfl
@[simp] theorem State.satMirror_readBuf (i : Word) (v : Byte) : (s.satMirror i v).readBuf = s.readBuf := by unfold State.satMirror; split <;> rfl
@[simp] theorem State.satMirror_ggLatch (i : Word) (v : Byte) : (s.satMirror i v).ggLatch = s.ggLatch := by unfold State.satMirror; split <;> rfl
@[simp] theorem State.satMirror_status (i : Word) (v : Byte) : (s.satMirror i v).status = s.status := by unfold State.satMirror; split <;> rfl
@[simp] theorem State.satMirror_fifoCount (i : Word) (v : Byte) : (s.satMirror i v).fifoCount = s.fifoCount := by unfold State.satMirror; split <;> rfl
@[simp] theorem State.satMirror_fifoLastWrite (i : Word) (v : Byte) : (s.satMirror i v).fifoLastWrite = s.fifoLastWrite := by unfold State.satMirror; split <;> rfl
@[simp] theorem State.satMirror_fifoLatency (i : Word) (v : Byte) : (s.satMirror i v).fifoLatency = s.fifoLatency := by unfold State.satMirror; split <;> rfl
@[simp] theorem State.satMirror_dmaType (i : Word) (v : Byte) : (s.satMirror i v).dmaType = s.dmaType := by unfold State.satMirror; split <;> rfl
@[simp] theorem State.satMirror_dmaRemaining (i : Word) (v : Byte) : (s.satMirror i v).dmaRemaining = s.dmaRemaining := by unfold State.satMirror; split <;> rfl
@[simp] theorem State.satMirror_dmaSource (i : Word) (v : Byte) : (s.satMirror i v).dmaSource = s.dmaSource := by unfold State.satMirror; split <;> rfl
@[simp] theorem State.satMirror_fillArmed (i : Word) (v : Byte) : (s.satMirror i v).fillArmed = s.fillArmed := by unfold State.satMirror; split <;> rfl
@[simp] theorem State.satMirror_fillByte (i : Word) (v : Byte) : (s.satMirror i v).fillByte = s.fillByte := by unfold State.satMirror; split <;> rfl
@[simp] theorem State.satMirror_dmaEndCycles (i : Word) (v : Byte) : (s.satMirror i v).dmaEndCycles = s.dmaEndCycles := by unfold State.satMirror; split <;> rfl
@[simp] theorem State.satMirror_deferredCtrl (i : Word) (v : Byte) : (s.satMirror i v).deferredCtrl = s.deferredCtrl := by unfold State.satMirror; split <;> rfl
@[simp] theorem State.satMirror_hvLatch (i : Word) (v : Byte) : (s.satMirror i v).hvLatch = s.hvLatch := by unfold State.satMirror; split <;> rfl
@[simp] theorem State.satMirror_lastT (i : Word) (v : Byte) : (s.satMirror i v).lastT = s.lastT := by unfold State.satMirror; split <;> rfl
@[simp] theorem State.satMirror_vram (i : Word) (v : Byte) : (s.satMirror i v).vram = s.vram := by unfold State.satMirror; split <;> rfl
@[simp] theorem State.satMirror_cram (i : Word) (v : Byte) : (s.satMirror i v).cram = s.cram := by unfold State.satMirror; split <;> rfl
@[simp] theorem State.satMirror_vsram (i : Word) (v : Byte) : (s.satMirror i v).vsram = s.vsram := by unfold State.satMirror; split <;> rfl
@[simp] theorem State.satMirror_dirty (i : Word) (v : Byte) : (s.satMirror i v).dirty = s.dirty := by unfold State.satMirror; split <;> rfl
@[simp] theorem State.satMirror_renderMode (i : Word) (v : Byte) : (s.satMirror i v).renderMode = s.renderMode := by unfold State.satMirror; split <;> rfl
@[simp] theorem State.satMirror_displayLines (i : Word) (v : Byte) : (s.satMirror i v).displayLines = s.displayLines := by unfold State.satMirror; split <;> rfl
@[simp] theorem State.satMirror_backdropColor (i : Word) (v : Byte) : (s.satMirror i v).backdropColor = s.backdropColor := by unfold State.satMirror; split <;> rfl
@[simp] theorem State.satMirror_faulted (i : Word) (v : Byte) : (s.satMirror i v).faulted = s.faulted := by unfold State.satMirror; split <;> rfl
@[simp] theorem State.satMirror_refused (i : Word) (v : Byte) : (s.satMirror i v).refused = s.refused := by unfold State.satMirror; split <;> rfl
@[simp] theorem State.satMirror_cpuStuck (i : Word) (v : Byte) : (s.satMirror i v).cpuStuck = s.cpuStuck := by unfold State.satMirror; split <;> rfl
@[simp] theorem State.satMirror_inbox (i : Word) (v : Byte) : (s.satMirror i v).inbox = s.inbox := by unfold State.satMirror; split <;> rfl
@[simp] theorem State.satMirror_draws (i : Word) (v : Byte) : (s.satMirror i v).draws = s.draws := by unfold State.satMirror; split <;> rfl
@[simp] theorem State.satMirror_out (i : Word) (v : Byte) : (s.satMirror i v).out = s.out := by unfold State.satMirror; split <;> rfl
@[simp] theorem State.satMirror_rd (i : Word) (v : Byte) (j : BitVec 5) : (s.satMirror i v).rd j = s.rd j := by
  simp [State.rd]
@[simp] theorem State.satMirror_m5 (i : Word) (v : Byte) : (s.satMirror i v).m5 = s.m5 := by simp [State.m5]
@[simp] theorem State.satMirror_h40 (i : Word) (v : Byte) : (s.satMirror i v).h40 = s.h40 := by simp [State.h40, State.m5]
@[simp] theorem State.satMirror_inc (i : Word) (v : Byte) : (s.satMirror i v).inc = s.inc := by
  unfold State.inc; simp only [State.satMirror_m5, State.satMirror_rd]
@[simp] theorem State.satMirror_dispEn (i : Word) (v : Byte) : (s.satMirror i v).dispEn = s.dispEn := by simp [State.dispEn]
@[simp] theorem State.satMirror_backdropIdx (i : Word) (v : Byte) : (s.satMirror i v).backdropIdx = s.backdropIdx := by
  unfold State.backdropIdx; simp only [State.satMirror_m5, State.satMirror_rd]
@[simp] theorem State.satMirror_satRange (i : Word) (v : Byte) : (s.satMirror i v).satRange = s.satRange := State.satRange_congr (by simp) (by simp)
@[simp] theorem State.satMirror_logIdx (i : Word) (v : Byte) (x : Word) : (s.satMirror i v).logIdx x = s.logIdx x := by
  unfold State.logIdx; rw [State.satMirror_cfg]
@[simp] theorem State.satMirror_inSat (i : Word) (v : Byte) (x : Word) : (s.satMirror i v).inSat x = s.inSat x := by
  simp [State.inSat]
@[simp] theorem State.satMirror_satIdx (i : Word) (v : Byte) (x : Word) : (s.satMirror i v).satIdx x = s.satIdx x := by
  simp [State.satIdx]
@[simp] theorem State.satMirror_target (i : Word) (v : Byte) : (s.satMirror i v).target = s.target := by simp [State.target]

/-! ### vramStore -/

@[simp] theorem State.vramStore_cfg (i : Word) (v : Byte) : (s.vramStore i v).cfg = s.cfg := by unfold State.vramStore; split <;> rfl
@[simp] theorem State.vramStore_reg (i : Word) (v : Byte) : (s.vramStore i v).reg = s.reg := by unfold State.vramStore; split <;> rfl
@[simp] theorem State.vramStore_addr (i : Word) (v : Byte) : (s.vramStore i v).addr = s.addr := by unfold State.vramStore; split <;> rfl
@[simp] theorem State.vramStore_code (i : Word) (v : Byte) : (s.vramStore i v).code = s.code := by unfold State.vramStore; split <;> rfl
@[simp] theorem State.vramStore_pending (i : Word) (v : Byte) : (s.vramStore i v).pending = s.pending := by unfold State.vramStore; split <;> rfl
@[simp] theorem State.vramStore_ctrlLatch (i : Word) (v : Byte) : (s.vramStore i v).ctrlLatch = s.ctrlLatch := by unfold State.vramStore; split <;> rfl
@[simp] theorem State.vramStore_readBuf (i : Word) (v : Byte) : (s.vramStore i v).readBuf = s.readBuf := by unfold State.vramStore; split <;> rfl
@[simp] theorem State.vramStore_ggLatch (i : Word) (v : Byte) : (s.vramStore i v).ggLatch = s.ggLatch := by unfold State.vramStore; split <;> rfl
@[simp] theorem State.vramStore_status (i : Word) (v : Byte) : (s.vramStore i v).status = s.status := by unfold State.vramStore; split <;> rfl
@[simp] theorem State.vramStore_fifoCount (i : Word) (v : Byte) : (s.vramStore i v).fifoCount = s.fifoCount := by unfold State.vramStore; split <;> rfl
@[simp] theorem State.vramStore_fifoLastWrite (i : Word) (v : Byte) : (s.vramStore i v).fifoLastWrite = s.fifoLastWrite := by unfold State.vramStore; split <;> rfl
@[simp] theorem State.vramStore_fifoLatency (i : Word) (v : Byte) : (s.vramStore i v).fifoLatency = s.fifoLatency := by unfold State.vramStore; split <;> rfl
@[simp] theorem State.vramStore_dmaType (i : Word) (v : Byte) : (s.vramStore i v).dmaType = s.dmaType := by unfold State.vramStore; split <;> rfl
@[simp] theorem State.vramStore_dmaRemaining (i : Word) (v : Byte) : (s.vramStore i v).dmaRemaining = s.dmaRemaining := by unfold State.vramStore; split <;> rfl
@[simp] theorem State.vramStore_dmaSource (i : Word) (v : Byte) : (s.vramStore i v).dmaSource = s.dmaSource := by unfold State.vramStore; split <;> rfl
@[simp] theorem State.vramStore_fillArmed (i : Word) (v : Byte) : (s.vramStore i v).fillArmed = s.fillArmed := by unfold State.vramStore; split <;> rfl
@[simp] theorem State.vramStore_fillByte (i : Word) (v : Byte) : (s.vramStore i v).fillByte = s.fillByte := by unfold State.vramStore; split <;> rfl
@[simp] theorem State.vramStore_dmaEndCycles (i : Word) (v : Byte) : (s.vramStore i v).dmaEndCycles = s.dmaEndCycles := by unfold State.vramStore; split <;> rfl
@[simp] theorem State.vramStore_deferredCtrl (i : Word) (v : Byte) : (s.vramStore i v).deferredCtrl = s.deferredCtrl := by unfold State.vramStore; split <;> rfl
@[simp] theorem State.vramStore_hvLatch (i : Word) (v : Byte) : (s.vramStore i v).hvLatch = s.hvLatch := by unfold State.vramStore; split <;> rfl
@[simp] theorem State.vramStore_lastT (i : Word) (v : Byte) : (s.vramStore i v).lastT = s.lastT := by unfold State.vramStore; split <;> rfl
@[simp] theorem State.vramStore_cram (i : Word) (v : Byte) : (s.vramStore i v).cram = s.cram := by unfold State.vramStore; split <;> rfl
@[simp] theorem State.vramStore_vsram (i : Word) (v : Byte) : (s.vramStore i v).vsram = s.vsram := by unfold State.vramStore; split <;> rfl
@[simp] theorem State.vramStore_sat (i : Word) (v : Byte) : (s.vramStore i v).sat = s.sat := by unfold State.vramStore; split <;> rfl
@[simp] theorem State.vramStore_renderMode (i : Word) (v : Byte) : (s.vramStore i v).renderMode = s.renderMode := by unfold State.vramStore; split <;> rfl
@[simp] theorem State.vramStore_displayLines (i : Word) (v : Byte) : (s.vramStore i v).displayLines = s.displayLines := by unfold State.vramStore; split <;> rfl
@[simp] theorem State.vramStore_backdropColor (i : Word) (v : Byte) : (s.vramStore i v).backdropColor = s.backdropColor := by unfold State.vramStore; split <;> rfl
@[simp] theorem State.vramStore_faulted (i : Word) (v : Byte) : (s.vramStore i v).faulted = s.faulted := by unfold State.vramStore; split <;> rfl
@[simp] theorem State.vramStore_refused (i : Word) (v : Byte) : (s.vramStore i v).refused = s.refused := by unfold State.vramStore; split <;> rfl
@[simp] theorem State.vramStore_cpuStuck (i : Word) (v : Byte) : (s.vramStore i v).cpuStuck = s.cpuStuck := by unfold State.vramStore; split <;> rfl
@[simp] theorem State.vramStore_inbox (i : Word) (v : Byte) : (s.vramStore i v).inbox = s.inbox := by unfold State.vramStore; split <;> rfl
@[simp] theorem State.vramStore_draws (i : Word) (v : Byte) : (s.vramStore i v).draws = s.draws := by unfold State.vramStore; split <;> rfl
@[simp] theorem State.vramStore_out (i : Word) (v : Byte) : (s.vramStore i v).out = s.out := by unfold State.vramStore; split <;> rfl
@[simp] theorem State.vramStore_rd (i : Word) (v : Byte) (j : BitVec 5) : (s.vramStore i v).rd j = s.rd j := by
  simp [State.rd]
@[simp] theorem State.vramStore_m5 (i : Word) (v : Byte) : (s.vramStore i v).m5 = s.m5 := by simp [State.m5]
@[simp] theorem State.vramStore_h40 (i : Word) (v : Byte) : (s.vramStore i v).h40 = s.h40 := by simp [State.h40, State.m5]
@[simp] theorem State.vramStore_inc (i : Word) (v : Byte) : (s.vramStore i v).inc = s.inc := by
  unfold State.inc; simp only [State.vramStore_m5, State.vramStore_rd]
@[simp] theorem State.vramStore_dispEn (i : Word) (v : Byte) : (s.vramStore i v).dispEn = s.dispEn := by simp [State.dispEn]
@[simp] theorem State.vramStore_backdropIdx (i : Word) (v : Byte) : (s.vramStore i v).backdropIdx = s.backdropIdx := by
  unfold State.backdropIdx; simp only [State.vramStore_m5, State.vramStore_rd]
@[simp] theorem State.vramStore_satRange (i : Word) (v : Byte) : (s.vramStore i v).satRange = s.satRange := State.satRange_congr (by simp) (by simp)
@[simp] theorem State.vramStore_logIdx (i : Word) (v : Byte) (x : Word) : (s.vramStore i v).logIdx x = s.logIdx x := by
  unfold State.logIdx; rw [State.vramStore_cfg]
@[simp] theorem State.vramStore_inSat (i : Word) (v : Byte) (x : Word) : (s.vramStore i v).inSat x = s.inSat x := by
  simp [State.inSat]
@[simp] theorem State.vramStore_satIdx (i : Word) (v : Byte) (x : Word) : (s.vramStore i v).satIdx x = s.satIdx x := by
  simp [State.satIdx]
@[simp] theorem State.vramStore_target (i : Word) (v : Byte) : (s.vramStore i v).target = s.target := by simp [State.target]

/-! ### vramPut -/

@[simp] theorem State.vramPut_cfg (i : Word) (v : Byte) : (s.vramPut i v).cfg = s.cfg := by simp [State.vramPut]
@[simp] theorem State.vramPut_reg (i : Word) (v : Byte) : (s.vramPut i v).reg = s.reg := by simp [State.vramPut]
@[simp] theorem State.vramPut_addr (i : Word) (v : Byte) : (s.vramPut i v).addr = s.addr := by simp [State.vramPut]
@[simp] theorem State.vramPut_code (i : Word) (v : Byte) : (s.vramPut i v).code = s.code := by simp [State.vramPut]
@[simp] theorem State.vramPut_pending (i : Word) (v : Byte) : (s.vramPut i v).pending = s.pending := by simp [State.vramPut]
@[simp] theorem State.vramPut_ctrlLatch (i : Word) (v : Byte) : (s.vramPut i v).ctrlLatch = s.ctrlLatch := by simp [State.vramPut]
@[simp] theorem State.vramPut_readBuf (i : Word) (v : Byte) : (s.vramPut i v).readBuf = s.readBuf := by simp [State.vramPut]
@[simp] theorem State.vramPut_ggLatch (i : Word) (v : Byte) : (s.vramPut i v).ggLatch = s.ggLatch := by simp [State.vramPut]
@[simp] theorem State.vramPut_status (i : Word) (v : Byte) : (s.vramPut i v).status = s.status := by simp [State.vramPut]
@[simp] theorem State.vramPut_fifoCount (i : Word) (v : Byte) : (s.vramPut i v).fifoCount = s.fifoCount := by simp [State.vramPut]
@[simp] theorem State.vramPut_fifoLastWrite (i : Word) (v : Byte) : (s.vramPut i v).fifoLastWrite = s.fifoLastWrite := by simp [State.vramPut]
@[simp] theorem State.vramPut_fifoLatency (i : Word) (v : Byte) : (s.vramPut i v).fifoLatency = s.fifoLatency := by simp [State.vramPut]
@[simp] theorem State.vramPut_dmaType (i : Word) (v : Byte) : (s.vramPut i v).dmaType = s.dmaType := by simp [State.vramPut]
@[simp] theorem State.vramPut_dmaRemaining (i : Word) (v : Byte) : (s.vramPut i v).dmaRemaining = s.dmaRemaining := by simp [State.vramPut]
@[simp] theorem State.vramPut_dmaSource (i : Word) (v : Byte) : (s.vramPut i v).dmaSource = s.dmaSource := by simp [State.vramPut]
@[simp] theorem State.vramPut_fillArmed (i : Word) (v : Byte) : (s.vramPut i v).fillArmed = s.fillArmed := by simp [State.vramPut]
@[simp] theorem State.vramPut_fillByte (i : Word) (v : Byte) : (s.vramPut i v).fillByte = s.fillByte := by simp [State.vramPut]
@[simp] theorem State.vramPut_dmaEndCycles (i : Word) (v : Byte) : (s.vramPut i v).dmaEndCycles = s.dmaEndCycles := by simp [State.vramPut]
@[simp] theorem State.vramPut_deferredCtrl (i : Word) (v : Byte) : (s.vramPut i v).deferredCtrl = s.deferredCtrl := by simp [State.vramPut]
@[simp] theorem State.vramPut_hvLatch (i : Word) (v : Byte) : (s.vramPut i v).hvLatch = s.hvLatch := by simp [State.vramPut]
@[simp] theorem State.vramPut_lastT (i : Word) (v : Byte) : (s.vramPut i v).lastT = s.lastT := by simp [State.vramPut]
@[simp] theorem State.vramPut_cram (i : Word) (v : Byte) : (s.vramPut i v).cram = s.cram := by simp [State.vramPut]
@[simp] theorem State.vramPut_vsram (i : Word) (v : Byte) : (s.vramPut i v).vsram = s.vsram := by simp [State.vramPut]
@[simp] theorem State.vramPut_renderMode (i : Word) (v : Byte) : (s.vramPut i v).renderMode = s.renderMode := by simp [State.vramPut]
@[simp] theorem State.vramPut_displayLines (i : Word) (v : Byte) : (s.vramPut i v).displayLines = s.displayLines := by simp [State.vramPut]
@[simp] theorem State.vramPut_backdropColor (i : Word) (v : Byte) : (s.vramPut i v).backdropColor = s.backdropColor := by simp [State.vramPut]
@[simp] theorem State.vramPut_faulted (i : Word) (v : Byte) : (s.vramPut i v).faulted = s.faulted := by simp [State.vramPut]
@[simp] theorem State.vramPut_refused (i : Word) (v : Byte) : (s.vramPut i v).refused = s.refused := by simp [State.vramPut]
@[simp] theorem State.vramPut_cpuStuck (i : Word) (v : Byte) : (s.vramPut i v).cpuStuck = s.cpuStuck := by simp [State.vramPut]
@[simp] theorem State.vramPut_inbox (i : Word) (v : Byte) : (s.vramPut i v).inbox = s.inbox := by simp [State.vramPut]
@[simp] theorem State.vramPut_draws (i : Word) (v : Byte) : (s.vramPut i v).draws = s.draws := by simp [State.vramPut]
@[simp] theorem State.vramPut_out (i : Word) (v : Byte) : (s.vramPut i v).out = s.out := by simp [State.vramPut]
@[simp] theorem State.vramPut_rd (i : Word) (v : Byte) (j : BitVec 5) : (s.vramPut i v).rd j = s.rd j := by
  simp [State.rd]
@[simp] theorem State.vramPut_m5 (i : Word) (v : Byte) : (s.vramPut i v).m5 = s.m5 := by simp [State.m5]
@[simp] theorem State.vramPut_h40 (i : Word) (v : Byte) : (s.vramPut i v).h40 = s.h40 := by simp [State.h40, State.m5]
@[simp] theorem State.vramPut_inc (i : Word) (v : Byte) : (s.vramPut i v).inc = s.inc := by
  unfold State.inc; simp only [State.vramPut_m5, State.vramPut_rd]
@[simp] theorem State.vramPut_dispEn (i : Word) (v : Byte) : (s.vramPut i v).dispEn = s.dispEn := by simp [State.dispEn]
@[simp] theorem State.vramPut_backdropIdx (i : Word) (v : Byte) : (s.vramPut i v).backdropIdx = s.backdropIdx := by
  unfold State.backdropIdx; simp only [State.vramPut_m5, State.vramPut_rd]
@[simp] theorem State.vramPut_satRange (i : Word) (v : Byte) : (s.vramPut i v).satRange = s.satRange := State.satRange_congr (by simp) (by simp)
@[simp] theorem State.vramPut_logIdx (i : Word) (v : Byte) (x : Word) : (s.vramPut i v).logIdx x = s.logIdx x := by
  unfold State.logIdx; rw [State.vramPut_cfg]
@[simp] theorem State.vramPut_inSat (i : Word) (v : Byte) (x : Word) : (s.vramPut i v).inSat x = s.inSat x := by
  simp [State.inSat]
@[simp] theorem State.vramPut_satIdx (i : Word) (v : Byte) (x : Word) : (s.vramPut i v).satIdx x = s.satIdx x := by
  simp [State.satIdx]
@[simp] theorem State.vramPut_target (i : Word) (v : Byte) : (s.vramPut i v).target = s.target := by simp [State.target]

/-! ### vramWordWrite -/

@[simp] theorem State.vramWordWrite_cfg (a w : Word) : (s.vramWordWrite a w).cfg = s.cfg := by simp [State.vramWordWrite]
@[simp] theorem State.vramWordWrite_reg (a w : Word) : (s.vramWordWrite a w).reg = s.reg := by simp [State.vramWordWrite]
@[simp] theorem State.vramWordWrite_addr (a w : Word) : (s.vramWordWrite a w).addr = s.addr := by simp [State.vramWordWrite]
@[simp] theorem State.vramWordWrite_code (a w : Word) : (s.vramWordWrite a w).code = s.code := by simp [State.vramWordWrite]
@[simp] theorem State.vramWordWrite_pending (a w : Word) : (s.vramWordWrite a w).pending = s.pending := by simp [State.vramWordWrite]
@[simp] theorem State.vramWordWrite_ctrlLatch (a w : Word) : (s.vramWordWrite a w).ctrlLatch = s.ctrlLatch := by simp [State.vramWordWrite]
@[simp] theorem State.vramWordWrite_readBuf (a w : Word) : (s.vramWordWrite a w).readBuf = s.readBuf := by simp [State.vramWordWrite]
@[simp] theorem State.vramWordWrite_ggLatch (a w : Word) : (s.vramWordWrite a w).ggLatch = s.ggLatch := by simp [State.vramWordWrite]
@[simp] theorem State.vramWordWrite_status (a w : Word) : (s.vramWordWrite a w).status = s.status := by simp [State.vramWordWrite]
@[simp] theorem State.vramWordWrite_fifoCount (a w : Word) : (s.vramWordWrite a w).fifoCount = s.fifoCount := by simp [State.vramWordWrite]
@[simp] theorem State.vramWordWrite_fifoLastWrite (a w : Word) : (s.vramWordWrite a w).fifoLastWrite = s.fifoLastWrite := by simp [State.vramWordWrite]
@[simp] theorem State.vramWordWrite_fifoLatency (a w : Word) : (s.vramWordWrite a w).fifoLatency = s.fifoLatency := by simp [State.vramWordWrite]
@[simp] theorem State.vramWordWrite_dmaType (a w : Word) : (s.vramWordWrite a w).dmaType = s.dmaType := by simp [State.vramWordWrite]
@[simp] theorem State.vramWordWrite_dmaRemaining (a w : Word) : (s.vramWordWrite a w).dmaRemaining = s.dmaRemaining := by simp [State.vramWordWrite]
@[simp] theorem State.vramWordWrite_dmaSource (a w : Word) : (s.vramWordWrite a w).dmaSource = s.dmaSource := by simp [State.vramWordWrite]
@[simp] theorem State.vramWordWrite_fillArmed (a w : Word) : (s.vramWordWrite a w).fillArmed = s.fillArmed := by simp [State.vramWordWrite]
@[simp] theorem State.vramWordWrite_fillByte (a w : Word) : (s.vramWordWrite a w).fillByte = s.fillByte := by simp [State.vramWordWrite]
@[simp] theorem State.vramWordWrite_dmaEndCycles (a w : Word) : (s.vramWordWrite a w).dmaEndCycles = s.dmaEndCycles := by simp [State.vramWordWrite]
@[simp] theorem State.vramWordWrite_deferredCtrl (a w : Word) : (s.vramWordWrite a w).deferredCtrl = s.deferredCtrl := by simp [State.vramWordWrite]
@[simp] theorem State.vramWordWrite_hvLatch (a w : Word) : (s.vramWordWrite a w).hvLatch = s.hvLatch := by simp [State.vramWordWrite]
@[simp] theorem State.vramWordWrite_lastT (a w : Word) : (s.vramWordWrite a w).lastT = s.lastT := by simp [State.vramWordWrite]
@[simp] theorem State.vramWordWrite_cram (a w : Word) : (s.vramWordWrite a w).cram = s.cram := by simp [State.vramWordWrite]
@[simp] theorem State.vramWordWrite_vsram (a w : Word) : (s.vramWordWrite a w).vsram = s.vsram := by simp [State.vramWordWrite]
@[simp] theorem State.vramWordWrite_renderMode (a w : Word) : (s.vramWordWrite a w).renderMode = s.renderMode := by simp [State.vramWordWrite]
@[simp] theorem State.vramWordWrite_displayLines (a w : Word) : (s.vramWordWrite a w).displayLines = s.displayLines := by simp [State.vramWordWrite]
@[simp] theorem State.vramWordWrite_backdropColor (a w : Word) : (s.vramWordWrite a w).backdropColor = s.backdropColor := by simp [State.vramWordWrite]
@[simp] theorem State.vramWordWrite_faulted (a w : Word) : (s.vramWordWrite a w).faulted = s.faulted := by simp [State.vramWordWrite]
@[simp] theorem State.vramWordWrite_refused (a w : Word) : (s.vramWordWrite a w).refused = s.refused := by simp [State.vramWordWrite]
@[simp] theorem State.vramWordWrite_cpuStuck (a w : Word) : (s.vramWordWrite a w).cpuStuck = s.cpuStuck := by simp [State.vramWordWrite]
@[simp] theorem State.vramWordWrite_inbox (a w : Word) : (s.vramWordWrite a w).inbox = s.inbox := by simp [State.vramWordWrite]
@[simp] theorem State.vramWordWrite_draws (a w : Word) : (s.vramWordWrite a w).draws = s.draws := by simp [State.vramWordWrite]
@[simp] theorem State.vramWordWrite_out (a w : Word) : (s.vramWordWrite a w).out = s.out := by simp [State.vramWordWrite]
@[simp] theorem State.vramWordWrite_rd (a w : Word) (j : BitVec 5) : (s.vramWordWrite a w).rd j = s.rd j := by
  simp [State.rd]
@[simp] theorem State.vramWordWrite_m5 (a w : Word) : (s.vramWordWrite a w).m5 = s.m5 := by simp [State.m5]
@[simp] theorem State.vramWordWrite_h40 (a w : Word) : (s.vramWordWrite a w).h40 = s.h40 := by simp [State.h40, State.m5]
@[simp] theorem State.vramWordWrite_inc (a w : Word) : (s.vramWordWrite a w).inc = s.inc := by
  unfold State.inc; simp only [State.vramWordWrite_m5, State.vramWordWrite_rd]
@[simp] theorem State.vramWordWrite_dispEn (a w : Word) : (s.vramWordWrite a w).dispEn = s.dispEn := by simp [State.dispEn]
@[simp] theorem State.vramWordWrite_backdropIdx (a w : Word) : (s.vramWordWrite a w).backdropIdx = s.backdropIdx := by
  unfold State.backdropIdx; simp only [State.vramWordWrite_m5, State.vramWordWrite_rd]
@[simp] theorem State.vramWordWrite_satRange (a w : Word) : (s.vramWordWrite a w).satRange = s.satRange := State.satRange_congr (by simp) (by simp)
@[simp] theorem State.vramWordWrite_logIdx (a w : Word) (x : Word) : (s.vramWordWrite a w).logIdx x = s.logIdx x := by
  unfold State.logIdx; rw [State.vramWordWrite_cfg]
@[simp] theorem State.vramWordWrite_inSat (a w : Word) (x : Word) : (s.vramWordWrite a w).inSat x = s.inSat x := by
  simp [State.inSat]
@[simp] theorem State.vramWordWrite_satIdx (a w : Word) (x : Word) : (s.vramWordWrite a w).satIdx x = s.satIdx x := by
  simp [State.satIdx]
@[simp] theorem State.vramWordWrite_target (a w : Word) : (s.vramWordWrite a w).target = s.target := by simp [State.target]

/-! ### cramWrite -/

@[simp] theorem State.cramWrite_cfg (i : BitVec 6) (v : Colour) : (s.cramWrite i v).cfg = s.cfg := by unfold State.cramWrite; split <;> rfl
@[simp] theorem State.cramWrite_reg (i : BitVec 6) (v : Colour) : (s.cramWrite i v).reg = s.reg := by unfold State.cramWrite; split <;> rfl
@[simp] theorem State.cramWrite_addr (i : BitVec 6) (v : Colour) : (s.cramWrite i v).addr = s.addr := by unfold State.cramWrite; split <;> rfl
@[simp] theorem State.cramWrite_code (i : BitVec 6) (v : Colour) : (s.cramWrite i v).code = s.code := by unfold State.cramWrite; split <;> rfl
@[simp] theorem State.cramWrite_pending (i : BitVec 6) (v : Colour) : (s.cramWrite i v).pending = s.pending := by unfold State.cramWrite; split <;> rfl
@[simp] theorem State.cramWrite_ctrlLatch (i : BitVec 6) (v : Colour) : (s.cramWrite i v).ctrlLatch = s.ctrlLatch := by unfold State.cramWrite; split <;> rfl
@[simp] theorem State.cramWrite_readBuf (i : BitVec 6) (v : Colour) : (s.cramWrite i v).readBuf = s.readBuf := by unfold State.cramWrite; split <;> rfl
@[simp] theorem State.cramWrite_ggLatch (i : BitVec 6) (v : Colour) : (s.cramWrite i v).ggLatch = s.ggLatch := by unfold State.cramWrite; split <;> rfl
@[simp] theorem State.cramWrite_status (i : BitVec 6) (v : Colour) : (s.cramWrite i v).status = s.status := by unfold State.cramWrite; split <;> rfl
@[simp] theorem State.cramWrite_fifoCount (i : BitVec 6) (v : Colour) : (s.cramWrite i v).fifoCount = s.fifoCount := by unfold State.cramWrite; split <;> rfl
@[simp] theorem State.cramWrite_fifoLastWrite (i : BitVec 6) (v : Colour) : (s.cramWrite i v).fifoLastWrite = s.fifoLastWrite := by unfold State.cramWrite; split <;> rfl
@[simp] theorem State.cramWrite_fifoLatency (i : BitVec 6) (v : Colour) : (s.cramWrite i v).fifoLatency = s.fifoLatency := by unfold State.cramWrite; split <;> rfl
@[simp] theorem State.cramWrite_dmaType (i : BitVec 6) (v : Colour) : (s.cramWrite i v).dmaType = s.dmaType := by unfold State.cramWrite; split <;> rfl
@[simp] theorem State.cramWrite_dmaRemaining (i : BitVec 6) (v : Colour) : (s.cramWrite i v).dmaRemaining = s.dmaRemaining := by unfold State.cramWrite; split <;> rfl
@[simp] theorem State.cramWrite_dmaSource (i : BitVec 6) (v : Colour) : (s.cramWrite i v).dmaSource = s.dmaSource := by unfold State.cramWrite; split <;> rfl
@[simp] theorem State.cramWrite_fillArmed (i : BitVec 6) (v : Colour) : (s.cramWrite i v).fillArmed = s.fillArmed := by unfold State.cramWrite; split <;> rfl
@[simp] theorem State.cramWrite_fillByte (i : BitVec 6) (v : Colour) : (s.cramWrite i v).fillByte = s.fillByte := by unfold State.cramWrite; split <;> rfl
@[simp] theorem State.cramWrite_dmaEndCycles (i : BitVec 6) (v : Colour) : (s.cramWrite i v).dmaEndCycles = s.dmaEndCycles := by unfold State.cramWrite; split <;> rfl
@[simp] theorem State.cramWrite_deferredCtrl (i : BitVec 6) (v : Colour) : (s.cramWrite i v).deferredCtrl = s.deferredCtrl := by unfold State.cramWrite; split <;> rfl
@[simp] theorem State.cramWrite_hvLatch (i : BitVec 6) (v : Colour) : (s.cramWrite i v).hvLatch = s.hvLatch := by unfold State.cramWrite; split <;> rfl
@[simp] theorem State.cramWrite_lastT (i : BitVec 6) (v : Colour) : (s.cramWrite i v).lastT = s.lastT := by unfold State.cramWrite; split <;> rfl
@[simp] theorem State.cramWrite_vram (i : BitVec 6) (v : Colour) : (s.cramWrite i v).vram = s.vram := by unfold State.cramWrite; split <;> rfl
@[simp] theorem State.cramWrite_vsram (i : BitVec 6) (v : Colour) : (s.cramWrite i v).vsram = s.vsram := by unfold State.cramWrite; split <;> rfl
@[simp] theorem State.cramWrite_sat (i : BitVec 6) (v : Colour) : (s.cramWrite i v).sat = s.sat := by unfold State.cramWrite; split <;> rfl
@[simp] theorem State.cramWrite_dirty (i : BitVec 6) (v : Colour) : (s.cramWrite i v).dirty = s.dirty := by unfold State.cramWrite; split <;> rfl
@[simp] theorem State.cramWrite_renderMode (i : BitVec 6) (v : Colour) : (s.cramWrite i v).renderMode = s.renderMode := by unfold State.cramWrite; split <;> rfl
@[simp] theorem State.cramWrite_displayLines (i : BitVec 6) (v : Colour) : (s.cramWrite i v).displayLines = s.displayLines := by unfold State.cramWrite; split <;> rfl
@[simp] theorem State.cramWrite_faulted (i : BitVec 6) (v : Colour) : (s.cramWrite i v).faulted = s.faulted := by unfold State.cramWrite; split <;> rfl
@[simp] theorem State.cramWrite_refused (i : BitVec 6) (v : Colour) : (s.cramWrite i v).refused = s.refused := by unfold State.cramWrite; split <;> rfl
@[simp] theorem State.cramWrite_cpuStuck (i : BitVec 6) (v : Colour) : (s.cramWrite i v).cpuStuck = s.cpuStuck := by unfold State.cramWrite; split <;> rfl
@[simp] theorem State.cramWrite_inbox (i : BitVec 6) (v : Colour) : (s.cramWrite i v).inbox = s.inbox := by unfold State.cramWrite; split <;> rfl
@[simp] theorem State.cramWrite_draws (i : BitVec 6) (v : Colour) : (s.cramWrite i v).draws = s.draws := by unfold State.cramWrite; split <;> rfl
@[simp] theorem State.cramWrite_out (i : BitVec 6) (v : Colour) : (s.cramWrite i v).out = s.out := by unfold State.cramWrite; split <;> rfl
@[simp] theorem State.cramWrite_rd (i : BitVec 6) (v : Colour) (j : BitVec 5) : (s.cramWrite i v).rd j = s.rd j := by
  simp [State.rd]
@[simp] theorem State.cramWrite_m5 (i : BitVec 6) (v : Colour) : (s.cramWrite i v).m5 = s.m5 := by simp [State.m5]
@[simp] theorem State.cramWrite_h40 (i : BitVec 6) (v : Colour) : (s.cramWrite i v).h40 = s.h40 := by simp [State.h40, State.m5]
@[simp] theorem State.cramWrite_inc (i : BitVec 6) (v : Colour) : (s.cramWrite i v).inc = s.inc := by
  unfold State.inc; simp only [State.cramWrite_m5, State.cramWrite_rd]
@[simp] theorem State.cramWrite_dispEn (i : BitVec 6) (v : Colour) : (s.cramWrite i v).dispEn = s.dispEn := by simp [State.dispEn]
@[simp] theorem State.cramWrite_backdropIdx (i : BitVec 6) (v : Colour) : (s.cramWrite i v).backdropIdx = s.backdropIdx := by
  unfold State.backdropIdx; simp only [State.cramWrite_m5, State.cramWrite_rd]
@[simp] theorem State.cramWrite_satRange (i : BitVec 6) (v : Colour) : (s.cramWrite i v).satRange = s.satRange := State.satRange_congr (by simp) (by simp)
@[simp] theorem State.cramWrite_logIdx (i : BitVec 6) (v : Colour) (x : Word) : (s.cramWrite i v).logIdx x = s.logIdx x := by
  unfold State.logIdx; rw [State.cramWrite_cfg]
@[simp] theorem State.cramWrite_inSat (i : BitVec 6) (v : Colour) (x : Word) : (s.cramWrite i v).inSat x = s.inSat x := by
  simp [State.inSat]
@[simp] theorem State.cramWrite_satIdx (i : BitVec 6) (v : Colour) (x : Word) : (s.cramWrite i v).satIdx x = s.satIdx x := by
  simp [State.satIdx]
@[simp] theorem State.cramWrite_target (i : BitVec 6) (v : Colour) : (s.cramWrite i v).target = s.target := by simp [State.target]

/-! ### targetWrite -/

@[simp] theorem State.targetWrite_cfg (w : Word) : (s.targetWrite w).cfg = s.cfg := by
  unfold State.targetWrite; (repeat' split) <;> simp
@[simp] theorem State.targetWrite_reg (w : Word) : (s.targetWrite w).reg = s.reg := by
  unfold State.targetWrite; (repeat' split) <;> simp
@[simp] theorem State.targetWrite_addr (w : Word) : (s.targetWrite w).addr = s.addr := by
  unfold State.targetWrite; (repeat' split) <;> simp
@[simp] theorem State.targetWrite_code (w : Word) : (s.targetWrite w).code = s.code := by
  unfold State.targetWrite; (repeat' split) <;> simp
@[simp] theorem State.targetWrite_pending (w : Word) : (s.targetWrite w).pending = s.pending := by
  unfold State.targetWrite; (repeat' split) <;> simp
@[simp] theorem State.targetWrite_ctrlLatch (w : Word) : (s.targetWrite w).ctrlLatch = s.ctrlLatch := by
  unfold State.targetWrite; (repeat' split) <;> simp
@[simp] theorem State.targetWrite_readBuf (w : Word) : (s.targetWrite w).readBuf = s.readBuf := by
  unfold State.targetWrite; (repeat' split) <;> simp
@[simp] theorem State.targetWrite_ggLatch (w : Word) : (s.targetWrite w).ggLatch = s.ggLatch := by
  unfold State.targetWrite; (repeat' split) <;> simp
@[simp] theorem State.targetWrite_status (w : Word) : (s.targetWrite w).status = s.status := by
  unfold State.targetWrite; (repeat' split) <;> simp
@[simp] theorem State.targetWrite_fifoCount (w : Word) : (s.targetWrite w).fifoCount = s.fifoCount := by
  unfold State.targetWrite; (repeat' split) <;> simp
@[simp] theorem State.targetWrite_fifoLastWrite (w : Word) : (s.targetWrite w).fifoLastWrite = s.fifoLastWrite := by
  unfold State.targetWrite; (repeat' split) <;> simp
@[simp] theorem State.targetWrite_fifoLatency (w : Word) : (s.targetWrite w).fifoLatency = s.fifoLatency := by
  unfold State.targetWrite; (repeat' split) <;> simp
@[simp] theorem State.targetWrite_dmaType (w : Word) : (s.targetWrite w).dmaType = s.dmaType := by
  unfold State.targetWrite; (repeat' split) <;> simp
@[simp] theorem State.targetWrite_dmaRemaining (w : Word) : (s.targetWrite w).dmaRemaining = s.dmaRemaining := by
  unfold State.targetWrite; (repeat' split) <;> simp
@[simp] theorem State.targetWrite_dmaSource (w : Word) : (s.targetWrite w).dmaSource = s.dmaSource := by
  unfold State.targetWrite; (repeat' split) <;> simp
@[simp] theorem State.targetWrite_fillArmed (w : Word) : (s.targetWrite w).fillArmed = s.fillArmed := by
  unfold State.targetWrite; (repeat' split) <;> simp
@[simp] theorem State.targetWrite_fillByte (w : Word) : (s.targetWrite w).fillByte = s.fillByte := by
  unfold State.targetWrite; (repeat' split) <;> simp
@[simp] theorem State.targetWrite_dmaEndCycles (w : Word) : (s.targetWrite w).dmaEndCycles = s.dmaEndCycles := by
  unfold State.targetWrite; (repeat' split) <;> simp
@[simp] theorem State.targetWrite_deferredCtrl (w : Word) : (s.targetWrite w).deferredCtrl = s.deferredCtrl := by
  unfold State.targetWrite; (repeat' split) <;> simp
@[simp] theorem State.targetWrite_hvLatch (w : Word) : (s.targetWrite w).hvLatch = s.hvLatch := by
  unfold State.targetWrite; (repeat' split) <;> simp
@[simp] theorem State.targetWrite_lastT (w : Word) : (s.targetWrite w).lastT = s.lastT := by
  unfold State.targetWrite; (repeat' split) <;> simp
@[simp] theorem State.targetWrite_renderMode (w : Word) : (s.targetWrite w).renderMode = s.renderMode := by
  unfold State.targetWrite; (repeat' split) <;> simp
@[simp] theorem State.targetWrite_displayLines (w : Word) : (s.targetWrite w).displayLines = s.displayLines := by
  unfold State.targetWrite; (repeat' split) <;> simp
@[simp] theorem State.targetWrite_faulted (w : Word) : (s.targetWrite w).faulted = s.faulted := by
  unfold State.targetWrite; (repeat' split) <;> simp
@[simp] theorem State.targetWrite_refused (w : Word) : (s.targetWrite w).refused = s.refused := by
  unfold State.targetWrite; (repeat' split) <;> simp
@[simp] theorem State.targetWrite_cpuStuck (w : Word) : (s.targetWrite w).cpuStuck = s.cpuStuck := by
  unfold State.targetWrite; (repeat' split) <;> simp
@[simp] theorem State.targetWrite_inbox (w : Word) : (s.targetWrite w).inbox = s.inbox := by
  unfold State.targetWrite; (repeat' split) <;> simp
@[simp] theorem State.targetWrite_draws (w : Word) : (s.targetWrite w).draws = s.draws := by
  unfold State.targetWrite; (repeat' split) <;> simp
@[simp] theorem State.targetWrite_out (w : Word) : (s.targetWrite w).out = s.out := by
  unfold State.targetWrite; (repeat' split) <;> simp
@[simp] theorem State.targetWrite_rd (w : Word) (j : BitVec 5) : (s.targetWrite w).rd j = s.rd j := by
  simp [State.rd]
@[simp] theorem State.targetWrite_m5 (w : Word) : (s.targetWrite w).m5 = s.m5 := by simp [State.m5]
@[simp] theorem State.targetWrite_h40 (w : Word) : (s.targetWrite w).h40 = s.h40 := by simp [State.h40, State.m5]
@[simp] theorem State.targetWrite_inc (w : Word) : (s.targetWrite w).inc = s.inc := by
  unfold State.inc; simp only [State.targetWrite_m5, State.targetWrite_rd]
@[simp] theorem State.targetWrite_dispEn (w : Word) : (s.targetWrite w).dispEn = s.dispEn := by simp [State.dispEn]
@[simp] theorem State.targetWrite_backdropIdx (w : Word) : (s.targetWrite w).backdropIdx = s.backdropIdx := by
  unfold State.backdropIdx; simp only [State.targetWrite_m5, State.targetWrite_rd]
@[simp] theorem State.targetWrite_satRange (w : Word) : (s.targetWrite w).satRange = s.satRange := State.satRange_congr (by simp) (by simp)
@[simp] theorem State.targetWrite_logIdx (w : Word) (x : Word) : (s.targetWrite w).logIdx x = s.logIdx x := by
  unfold State.logIdx; rw [State.targetWrite_cfg]
@[simp] theorem State.targetWrite_inSat (w : Word) (x : Word) : (s.targetWrite w).inSat x = s.inSat x := by
  simp [State.inSat]
@[simp] theorem State.targetWrite_satIdx (w : Word) (x : Word) : (s.targetWrite w).satIdx x = s.satIdx x := by
  simp [State.satIdx]
@[simp] theorem State.targetWrite_target (w : Word) : (s.targetWrite w).target = s.target := by simp [State.target]

/-! ### busWrite -/

@[simp] theorem State.busWrite_cfg (w : Word) : (s.busWrite w).cfg = s.cfg := by simp [State.busWrite]
@[simp] theorem State.busWrite_reg (w : Word) : (s.busWrite w).reg = s.reg := by simp [State.busWrite]
@[simp] theorem State.busWrite_code (w : Word) : (s.busWrite w).code = s.code := by simp [State.busWrite]
@[simp] theorem State.busWrite_pending (w : Word) : (s.busWrite w).pending = s.pending := by simp [State.busWrite]
@[simp] theorem State.busWrite_ctrlLatch (w : Word) : (s.busWrite w).ctrlLatch = s.ctrlLatch := by simp [State.busWrite]
@[simp] theorem State.busWrite_readBuf (w : Word) : (s.busWrite w).readBuf = s.readBuf := by simp [State.busWrite]
@[simp] theorem State.busWrite_ggLatch (w : Word) : (s.busWrite w).ggLatch = s.ggLatch := by simp [State.busWrite]
@[simp] theorem State.busWrite_status (w : Word) : (s.busWrite w).status = s.status := by simp [State.busWrite]
@[simp] theorem State.busWrite_fifoCount (w : Word) : (s.busWrite w).fifoCount = s.fifoCount := by simp [State.busWrite]
@[simp] theorem State.busWrite_fifoLastWrite (w : Word) : (s.busWrite w).fifoLastWrite = s.fifoLastWrite := by simp [State.busWrite]
@[simp] theorem State.busWrite_fifoLatency (w : Word) : (s.busWrite w).fifoLatency = s.fifoLatency := by simp [State.busWrite]
@[simp] theorem State.busWrite_dmaType (w : Word) : (s.busWrite w).dmaType = s.dmaType := by simp [State.busWrite]
@[simp] theorem State.busWrite_dmaRemaining (w : Word) : (s.busWrite w).dmaRemaining = s.dmaRemaining := by simp [State.busWrite]
@[simp] theorem State.busWrite_dmaSource (w : Word) : (s.busWrite w).dmaSource = s.dmaSource := by simp [State.busWrite]
@[simp] theorem State.busWrite_fillArmed (w : Word) : (s.busWrite w).fillArmed = s.fillArmed := by simp [State.busWrite]
@[simp] theorem State.busWrite_fillByte (w : Word) : (s.busWrite w).fillByte = s.fillByte := by simp [State.busWrite]
@[simp] theorem State.busWrite_dmaEndCycles (w : Word) : (s.busWrite w).dmaEndCycles = s.dmaEndCycles := by simp [State.busWrite]
@[simp] theorem State.busWrite_deferredCtrl (w : Word) : (s.busWrite w).deferredCtrl = s.deferredCtrl := by simp [State.busWrite]
@[simp] theorem State.busWrite_hvLatch (w : Word) : (s.busWrite w).hvLatch = s.hvLatch := by simp [State.busWrite]
@[simp] theorem State.busWrite_lastT (w : Word) : (s.busWrite w).lastT = s.lastT := by simp [State.busWrite]
@[simp] theorem State.busWrite_renderMode (w : Word) : (s.busWrite w).renderMode = s.renderMode := by simp [State.busWrite]
@[simp] theorem State.busWrite_displayLines (w : Word) : (s.busWrite w).displayLines = s.displayLines := by simp [State.busWrite]
@[simp] theorem State.busWrite_faulted (w : Word) : (s.busWrite w).faulted = s.faulted := by simp [State.busWrite]
@[simp] theorem State.busWrite_refused (w : Word) : (s.busWrite w).refused = s.refused := by simp [State.busWrite]
@[simp] theorem State.busWrite_cpuStuck (w : Word) : (s.busWrite w).cpuStuck = s.cpuStuck := by simp [State.busWrite]
@[simp] theorem State.busWrite_inbox (w : Word) : (s.busWrite w).inbox = s.inbox := by simp [State.busWrite]
@[simp] theorem State.busWrite_draws (w : Word) : (s.busWrite w).draws = s.draws := by simp [State.busWrite]
@[simp] theorem State.busWrite_out (w : Word) : (s.busWrite w).out = s.out := by simp [State.busWrite]
@[simp] theorem State.busWrite_rd (w : Word) (j : BitVec 5) : (s.busWrite w).rd j = s.rd j := by
  simp [State.rd]
@[simp] theorem State.busWrite_m5 (w : Word) : (s.busWrite w).m5 = s.m5 := by simp [State.m5]
@[simp] theorem State.busWrite_h40 (w : Word) : (s.busWrite w).h40 = s.h40 := by simp [State.h40, State.m5]
@[simp] theorem State.busWrite_inc (w : Word) : (s.busWrite w).inc = s.inc := by
  unfold State.inc; simp only [State.busWrite_m5, State.busWrite_rd]
@[simp] theorem State.busWrite_dispEn (w : Word) : (s.busWrite w).dispEn = s.dispEn := by simp [State.dispEn]
@[simp] theorem State.busWrite_backdropIdx (w : Word) : (s.busWrite w).backdropIdx = s.backdropIdx := by
  unfold State.backdropIdx; simp only [State.busWrite_m5, State.busWrite_rd]
@[simp] theorem State.busWrite_satRange (w : Word) : (s.busWrite w).satRange = s.satRange := State.satRange_congr (by simp) (by simp)
@[simp] theorem State.busWrite_logIdx (w : Word) (x : Word) : (s.busWrite w).logIdx x = s.logIdx x := by
  unfold State.logIdx; rw [State.busWrite_cfg]
@[simp] theorem State.busWrite_inSat (w : Word) (x : Word) : (s.busWrite w).inSat x = s.inSat x := by
  simp [State.inSat]
@[simp] theorem State.busWrite_satIdx (w : Word) (x : Word) : (s.busWrite w).satIdx x = s.satIdx x := by
  simp [State.satIdx]
@[simp] theorem State.busWrite_target (w : Word) : (s.busWrite w).target = s.target := by simp [State.target]

/-! ### refill16 -/

@[simp] theorem State.refill16_cfg : (s.refill16).cfg = s.cfg := by unfold State.refill16; split <;> rfl
@[simp] theorem State.refill16_reg : (s.refill16).reg = s.reg := by unfold State.refill16; split <;> rfl
@[simp] theorem State.refill16_code : (s.refill16).code = s.code := by unfold State.refill16; split <;> rfl
@[simp] theorem State.refill16_pending : (s.refill16).pending = s.pending := by unfold State.refill16; split <;> rfl
@[simp] theorem State.refill16_ctrlLatch : (s.refill16).ctrlLatch = s.ctrlLatch := by unfold State.refill16; split <;> rfl
@[simp] theorem State.refill16_ggLatch : (s.refill16).ggLatch = s.ggLatch := by unfold State.refill16; split <;> rfl
@[simp] theorem State.refill16_status : (s.refill16).status = s.status := by unfold State.refill16; split <;> rfl
@[simp] theorem State.refill16_fifoCount : (s.refill16).fifoCount = s.fifoCount := by unfold State.refill16; split <;> rfl
@[simp] theorem State.refill16_fifoLastWrite : (s.refill16).fifoLastWrite = s.fifoLastWrite := by unfold State.refill16; split <;> rfl
@[simp] theorem State.refill16_fifoLatency : (s.refill16).fifoLatency = s.fifoLatency := by unfold State.refill16; split <;> rfl
@[simp] theorem State.refill16_dmaType : (s.refill16).dmaType = s.dmaType := by unfold State.refill16; split <;> rfl
@[simp] theorem State.refill16_dmaRemaining : (s.refill16).dmaRemaining = s.dmaRemaining := by unfold State.refill16; split <;> rfl
@[simp] theorem State.refill16_dmaSource : (s.refill16).dmaSource = s.dmaSource := by unfold State.refill16; split <;> rfl
@[simp] theorem State.refill16_fillArmed : (s.refill16).fillArmed = s.fillArmed := by unfold State.refill16; split <;> rfl
@[simp] theorem State.refill16_fillByte : (s.refill16).fillByte = s.fillByte := by unfold State.refill16; split <;> rfl
@[simp] theorem State.refill16_dmaEndCycles : (s.refill16).dmaEndCycles = s.dmaEndCycles := by unfold State.refill16; split <;> rfl
@[simp] theorem State.refill16_deferredCtrl : (s.refill16).deferredCtrl = s.deferredCtrl := by unfold State.refill16; split <;> rfl
@[simp] theorem State.refill16_hvLatch : (s.refill16).hvLatch = s.hvLatch := by unfold State.refill16; split <;> rfl
@[simp] theorem State.refill16_lastT : (s.refill16).lastT = s.lastT := by unfold State.refill16; split <;> rfl
@[simp] theorem State.refill16_vram : (s.refill16).vram = s.vram := by unfold State.refill16; split <;> rfl
@[simp] theorem State.refill16_cram : (s.refill16).cram = s.cram := by unfold State.refill16; split <;> rfl
@[simp] theorem State.refill16_vsram : (s.refill16).vsram = s.vsram := by unfold State.refill16; split <;> rfl
@[simp] theorem State.refill16_sat : (s.refill16).sat = s.sat := by unfold State.refill16; split <;> rfl
@[simp] theorem State.refill16_dirty : (s.refill16).dirty = s.dirty := by unfold State.refill16; split <;> rfl
@[simp] theorem State.refill16_renderMode : (s.refill16).renderMode = s.renderMode := by unfold State.refill16; split <;> rfl
@[simp] theorem State.refill16_displayLines : (s.refill16).displayLines = s.displayLines := by unfold State.refill16; split <;> rfl
@[simp] theorem State.refill16_backdropColor : (s.refill16).backdropColor = s.backdropColor := by unfold State.refill16; split <;> rfl
@[simp] theorem State.refill16_faulted : (s.refill16).faulted = s.faulted := by unfold State.refill16; split <;> rfl
@[simp] theorem State.refill16_refused : (s.refill16).refused = s.refused := by unfold State.refill16; split <;> rfl
@[simp] theorem State.refill16_cpuStuck : (s.refill16).cpuStuck = s.cpuStuck := by unfold State.refill16; split <;> rfl
@[simp] theorem State.refill16_inbox : (s.refill16).inbox = s.inbox := by unfold State.refill16; split <;> rfl
@[simp] theorem State.refill16_out : (s.refill16).out = s.out := by unfold State.refill16; split <;> rfl
@[simp] theorem State.refill16_rd (j : BitVec 5) : (s.refill16).rd j = s.rd j := by
  simp [State.rd]
@[simp] theorem State.refill16_m5 : (s.refill16).m5 = s.m5 := by simp [State.m5]
@[simp] theorem State.refill16_h40 : (s.refill16).h40 = s.h40 := by simp [State.h40, State.m5]
@[simp] theorem State.refill16_inc : (s.refill16).inc = s.inc := by
  unfold State.inc; simp only [State.refill16_m5, State.refill16_rd]
@[simp] theorem State.refill16_dispEn : (s.refill16).dispEn = s.dispEn := by simp [State.dispEn]
@[simp] theorem State.refill16_backdropIdx : (s.refill16).backdropIdx = s.backdropIdx := by
  unfold State.backdropIdx; simp only [State.refill16_m5, State.refill16_rd]
@[simp] theorem State.refill16_satRange : (s.refill16).satRange = s.satRange := State.satRange_congr (by simp) (by simp)
@[simp] theorem State.refill16_logIdx (x : Word) : (s.refill16).logIdx x = s.logIdx x := by
  unfold State.logIdx; rw [State.refill16_cfg]
@[simp] theorem State.refill16_inSat (x : Word) : (s.refill16).inSat x = s.inSat x := by
  simp [State.inSat]
@[simp] theorem State.refill16_satIdx (x : Word) : (s.refill16).satIdx x = s.satIdx x := by
  simp [State.satIdx]
@[simp] theorem State.refill16_target : (s.refill16).target = s.target := by simp [State.target]

/-! ### byteStore -/

@[simp] theorem State.byteStore_cfg (v : Byte) : (s.byteStore v).cfg = s.cfg := by
  unfold State.byteStore; (repeat' split) <;> simp
@[simp] theorem State.byteStore_reg (v : Byte) : (s.byteStore v).reg = s.reg := by
  unfold State.byteStore; (repeat' split) <;> simp
@[simp] theorem State.byteStore_addr (v : Byte) : (s.byteStore v).addr = s.addr := by
  unfold State.byteStore; (repeat' split) <;> simp
@[simp] theorem State.byteStore_code (v : Byte) : (s.byteStore v).code = s.code := by
  unfold State.byteStore; (repeat' split) <;> simp
@[simp] theorem State.byteStore_pending (v : Byte) : (s.byteStore v).pending = s.pending := by
  unfold State.byteStore; (repeat' split) <;> simp
@[simp] theorem State.byteStore_ctrlLatch (v : Byte) : (s.byteStore v).ctrlLatch = s.ctrlLatch := by
  unfold State.byteStore; (repeat' split) <;> simp
@[simp] theorem State.byteStore_readBuf (v : Byte) : (s.byteStore v).readBuf = s.readBuf := by
  unfold State.byteStore; (repeat' split) <;> simp
@[simp] theorem State.byteStore_status (v : Byte) : (s.byteStore v).status = s.status := by
  unfold State.byteStore; (repeat' split) <;> simp
@[simp] theorem State.byteStore_fifoCount (v : Byte) : (s.byteStore v).fifoCount = s.fifoCount := by
  unfold State.byteStore; (repeat' split) <;> simp
@[simp] theorem State.byteStore_fifoLastWrite (v : Byte) : (s.byteStore v).fifoLastWrite = s.fifoLastWrite := by
  unfold State.byteStore; (repeat' split) <;> simp
@[simp] theorem State.byteStore_fifoLatency (v : Byte) : (s.byteStore v).fifoLatency = s.fifoLatency := by
  unfold State.byteStore; (repeat' split) <;> simp
@[simp] theorem State.byteStore_dmaType (v : Byte) : (s.byteStore v).dmaType = s.dmaType := by
  unfold State.byteStore; (repeat' split) <;> simp
@[simp] theorem State.byteStore_dmaRemaining (v : Byte) : (s.byteStore v).dmaRemaining = s.dmaRemaining := by
  unfold State.byteStore; (repeat' split) <;> simp
@[simp] theorem State.byteStore_dmaSource (v : Byte) : (s.byteStore v).dmaSource = s.dmaSource := by
  unfold State.byteStore; (repeat' split) <;> simp
@[simp] theorem State.byteStore_fillArmed (v : Byte) : (s.byteStore v).fillArmed = s.fillArmed := by
  unfold State.byteStore; (repeat' split) <;> simp
@[simp] theorem State.byteStore_fillByte (v : Byte) : (s.byteStore v).fillByte = s.fillByte := by
  unfold State.byteStore; (repeat' split) <;> simp
@[simp] theorem State.byteStore_dmaEndCycles (v : Byte) : (s.byteStore v).dmaEndCycles = s.dmaEndCycles := by
  unfold State.byteStore; (repeat' split) <;> simp
@[simp] theorem State.byteStore_deferredCtrl (v : Byte) : (s.byteStore v).deferredCtrl = s.deferredCtrl := by
  unfold State.byteStore; (repeat' split) <;> simp
@[simp] theorem State.byteStore_hvLatch (v : Byte) : (s.byteStore v).hvLatch = s.hvLatch := by
  unfold State.byteStore; (repeat' split) <;> simp
@[simp] theorem State.byteStore_lastT (v : Byte) : (s.byteStore v).lastT = s.lastT := by
  unfold State.byteStore; (repeat' split) <;> simp
@[simp] theorem State.byteStore_vsram (v : Byte) : (s.byteStore v).vsram = s.vsram := by
  unfold State.byteStore; (repeat' split) <;> simp
@[simp] theorem State.byteStore_renderMode (v : Byte) : (s.byteStore v).renderMode = s.renderMode := by
  unfold State.byteStore; (repeat' split) <;> simp
@[simp] theorem State.byteStore_displayLines (v : Byte) : (s.byteStore v).displayLines = s.displayLines := by
  unfold State.byteStore; (repeat' split) <;> simp
@[simp] theorem State.byteStore_faulted (v : Byte) : (s.byteStore v).faulted = s.faulted := by
  unfold State.byteStore; (repeat' split) <;> simp
@[simp] theorem State.byteStore_refused (v : Byte) : (s.byteStore v).refused = s.refused := by
  unfold State.byteStore; (repeat' split) <;> simp
@[simp] theorem State.byteStore_cpuStuck (v : Byte) : (s.byteStore v).cpuStuck = s.cpuStuck := by
  unfold State.byteStore; (repeat' split) <;> simp
@[simp] theorem State.byteStore_inbox (v : Byte) : (s.byteStore v).inbox = s.inbox := by
  unfold State.byteStore; (repeat' split) <;> simp
@[simp] theorem State.byteStore_draws (v : Byte) : (s.byteStore v).draws = s.draws := by
  unfold State.byteStore; (repeat' split) <;> simp
@[simp] theorem State.byteStore_out (v : Byte) : (s.byteStore v).out = s.out := by
  unfold State.byteStore; (repeat' split) <;> simp
@[simp] theorem State.byteStore_rd (v : Byte) (j : BitVec 5) : (s.byteStore v).rd j = s.rd j := by
  simp [State.rd]
@[simp] theorem State.byteStore_m5 (v : Byte) : (s.byteStore v).m5 = s.m5 := by simp [State.m5]
@[simp] theorem State.byteStore_h40 (v : Byte) : (s.byteStore v).h40 = s.h40 := by simp [State.h40, State.m5]
@[simp] theorem State.byteStore_inc (v : Byte) : (s.byteStore v).inc = s.inc := by
  unfold State.inc; simp only [State.byteStore_m5, State.byteStore_rd]
@[simp] theorem State.byteStore_dispEn (v : Byte) : (s.byteStore v).dispEn = s.dispEn := by simp [State.dispEn]
@[simp] theorem State.byteStore_backdropIdx (v : Byte) : (s.byteStore v).backdropIdx = s.backdropIdx := by
  unfold State.backdropIdx; simp only [State.byteStore_m5, State.byteStore_rd]
@[simp] theorem State.byteStore_satRange (v : Byte) : (s.byteStore v).satRange = s.satRange := State.satRange_congr (by simp) (by simp)
@[simp] theorem State.byteStore_logIdx (v : Byte) (x : Word) : (s.byteStore v).logIdx x = s.logIdx x := by
  unfold State.logIdx; rw [State.byteStore_cfg]
@[simp] theorem State.byteStore_inSat (v : Byte) (x : Word) : (s.byteStore v).inSat x = s.inSat x := by
  simp [State.inSat]
@[simp] theorem State.byteStore_satIdx (v : Byte) (x : Word) : (s.byteStore v).satIdx x = s.satIdx x := by
  simp [State.satIdx]
@[simp] theorem State.byteStore_target (v : Byte) : (s.byteStore v).target = s.target := by simp [State.target]

/-! ### fifoUpdate -/

@[simp] theorem State.fifoUpdate_cfg (t : Nat) : (s.fifoUpdate t).cfg = s.cfg := by unfold State.fifoUpdate; split <;> rfl
@[simp] theorem State.fifoUpdate_reg (t : Nat) : (s.fifoUpdate t).reg = s.reg := by unfold State.fifoUpdate; split <;> rfl
@[simp] theorem State.fifoUpdate_addr (t : Nat) : (s.fifoUpdate t).addr = s.addr := by unfold State.fifoUpdate; split <;> rfl
@[simp] theorem State.fifoUpdate_code (t : Nat) : (s.fifoUpdate t).code = s.code := by unfold State.fifoUpdate; split <;> rfl
@[simp] theorem State.fifoUpdate_pending (t : Nat) : (s.fifoUpdate t).pending = s.pending := by unfold State.fifoUpdate; split <;> rfl
@[simp] theorem State.fifoUpdate_ctrlLatch (t : Nat) : (s.fifoUpdate t).ctrlLatch = s.ctrlLatch := by unfold State.fifoUpdate; split <;> rfl
@[simp] theorem State.fifoUpdate_readBuf (t : Nat) : (s.fifoUpdate t).readBuf = s.readBuf := by unfold State.fifoUpdate; split <;> rfl
@[simp] theorem State.fifoUpdate_ggLatch (t : Nat) : (s.fifoUpdate t).ggLatch = s.ggLatch := by unfold State.fifoUpdate; split <;> rfl
@[simp] theorem State.fifoUpdate_status (t : Nat) : (s.fifoUpdate t).status = s.status := by unfold State.fifoUpdate; split <;> rfl
@[simp] theorem State.fifoUpdate_fifoLatency (t : Nat) : (s.fifoUpdate t).fifoLatency = s.fifoLatency := by unfold State.fifoUpdate; split <;> rfl
@[simp] theorem State.fifoUpdate_dmaType (t : Nat) : (s.fifoUpdate t).dmaType = s.dmaType := by unfold State.fifoUpdate; split <;> rfl
@[simp] theorem State.fifoUpdate_dmaRemaining (t : Nat) : (s.fifoUpdate t).dmaRemaining = s.dmaRemaining := by unfold State.fifoUpdate; split <;> rfl
@[simp] theorem State.fifoUpdate_dmaSource (t : Nat) : (s.fifoUpdate t).dmaSource = s.dmaSource := by unfold State.fifoUpdate; split <;> rfl
@[simp] theorem State.fifoUpdate_fillArmed (t : Nat) : (s.fifoUpdate t).fillArmed = s.fillArmed := by unfold State.fifoUpdate; split <;> rfl
@[simp] theorem State.fifoUpdate_fillByte (t : Nat) : (s.fifoUpdate t).fillByte = s.fillByte := by unfold State.fifoUpdate; split <;> rfl
@[simp] theorem State.fifoUpdate_dmaEndCycles (t : Nat) : (s.fifoUpdate t).dmaEndCycles = s.dmaEndCycles := by unfold State.fifoUpdate; split <;> rfl
@[simp] theorem State.fifoUpdate_deferredCtrl (t : Nat) : (s.fifoUpdate t).deferredCtrl = s.deferredCtrl := by unfold State.fifoUpdate; split <;> rfl
@[simp] theorem State.fifoUpdate_hvLatch (t : Nat) : (s.fifoUpdate t).hvLatch = s.hvLatch := by unfold State.fifoUpdate; split <;> rfl
@[simp] theorem State.fifoUpdate_lastT (t : Nat) : (s.fifoUpdate t).lastT = s.lastT := by unfold State.fifoUpdate; split <;> rfl
@[simp] theorem State.fifoUpdate_vram (t : Nat) : (s.fifoUpdate t).vram = s.vram := by unfold State.fifoUpdate; split <;> rfl
@[simp] theorem State.fifoUpdate_cram (t : Nat) : (s.fifoUpdate t).cram = s.cram := by unfold State.fifoUpdate; split <;> rfl
@[simp] theorem State.fifoUpdate_vsram (t : Nat) : (s.fifoUpdate t).vsram = s.vsram := by unfold State.fifoUpdate; split <;> rfl
@[simp] theorem State.fifoUpdate_sat (t : Nat) : (s.fifoUpdate t).sat = s.sat := by unfold State.fifoUpdate; split <;> rfl
@[simp] theorem State.fifoUpdate_dirty (t : Nat) : (s.fifoUpdate t).dirty = s.dirty := by unfold State.fifoUpdate; split <;> rfl
@[simp] theorem State.fifoUpdate_renderMode (t : Nat) : (s.fifoUpdate t).renderMode = s.renderMode := by unfold State.fifoUpdate; split <;> rfl
@[simp] theorem State.fifoUpdate_displayLines (t : Nat) : (s.fifoUpdate t).displayLines = s.displayLines := by unfold State.fifoUpdate; split <;> rfl
@[simp] theorem State.fifoUpdate_backdropColor (t : Nat) : (s.fifoUpdate t).backdropColor = s.backdropColor := by unfold State.fifoUpdate; split <;> rfl
@[simp] theorem State.fifoUpdate_faulted (t : Nat) : (s.fifoUpdate t).faulted = s.faulted := by unfold State.fifoUpdate; split <;> rfl
@[simp] theorem State.fifoUpdate_refused (t : Nat) : (s.fifoUpdate t).refused = s.refused := by unfold State.fifoUpdate; split <;> rfl
@[simp] theorem State.fifoUpdate_cpuStuck (t : Nat) : (s.fifoUpdate t).cpuStuck = s.cpuStuck := by unfold State.fifoUpdate; split <;> rfl
@[simp] theorem State.fifoUpdate_inbox (t : Nat) : (s.fifoUpdate t).inbox = s.inbox := by unfold State.fifoUpdate; split <;> rfl
@[simp] theorem State.fifoUpdate_draws (t : Nat) : (s.fifoUpdate t).draws = s.draws := by unfold State.fifoUpdate; split <;> rfl
@[simp] theorem State.fifoUpdate_out (t : Nat) : (s.fifoUpdate t).out = s.out := by unfold State.fifoUpdate; split <;> rfl
@[simp] theorem State.fifoUpdate_rd (t : Nat) (j : BitVec 5) : (s.fifoUpdate t).rd j = s.rd j := by
  simp [State.rd]
@[simp] theorem State.fifoUpdate_m5 (t : Nat) : (s.fifoUpdate t).m5 = s.m5 := by simp [State.m5]
@[simp] theorem State.fifoUpdate_h40 (t : Nat) : (s.fifoUpdate t).h40 = s.h40 := by simp [State.h40, State.m5]
@[simp] theorem State.fifoUpdate_inc (t : Nat) : (s.fifoUpdate t).inc = s.inc := by
  unfold State.inc; simp only [State.fifoUpdate_m5, State.fifoUpdate_rd]
@[simp] theorem State.fifoUpdate_dispEn (t : Nat) : (s.fifoUpdate t).dispEn = s.dispEn := by simp [State.dispEn]
@[simp] theorem State.fifoUpdate_backdropIdx (t : Nat) : (s.fifoUpdate t).backdropIdx = s.backdropIdx := by
  unfold State.backdropIdx; simp only [State.fifoUpdate_m5, State.fifoUpdate_rd]
@[simp] theorem State.fifoUpdate_satRange (t : Nat) : (s.fifoUpdate t).satRange = s.satRange := State.satRange_congr (by simp) (by simp)
@[simp] theorem State.fifoUpdate_logIdx (t : Nat) (x : Word) : (s.fifoUpdate t).logIdx x = s.logIdx x := by
  unfold State.logIdx; rw [State.fifoUpdate_cfg]
@[simp] theorem State.fifoUpdate_inSat (t : Nat) (x : Word) : (s.fifoUpdate t).inSat x = s.inSat x := by
  simp [State.inSat]
@[simp] theorem State.fifoUpdate_satIdx (t : Nat) (x : Word) : (s.fifoUpdate t).satIdx x = s.satIdx x := by
  simp [State.satIdx]
@[simp] theorem State.fifoUpdate_target (t : Nat) : (s.fifoUpdate t).target = s.target := by simp [State.target]

/-! ### fifoCharge -/

@[simp] theorem State.fifoCharge_cfg (t : Nat) : ((s.fifoCharge t).1).cfg = s.cfg := by unfold State.fifoCharge; split <;> rfl
@[simp] theorem State.fifoCharge_reg (t : Nat) : ((s.fifoCharge t).1).reg = s.reg := by unfold State.fifoCharge; split <;> rfl
@[simp] theorem State.fifoCharge_addr (t : Nat) : ((s.fifoCharge t).1).addr = s.addr := by unfold State.fifoCharge; split <;> rfl
@[simp] theorem State.fifoCharge_code (t : Nat) : ((s.fifoCharge t).1).code = s.code := by unfold State.fifoCharge; split <;> rfl
@[simp] theorem State.fifoCharge_pending (t : Nat) : ((s.fifoCharge t).1).pending = s.pending := by unfold State.fifoCharge; split <;> rfl
@[simp] theorem State.fifoCharge_ctrlLatch (t : Nat) : ((s.fifoCharge t).1).ctrlLatch = s.ctrlLatch := by unfold State.fifoCharge; split <;> rfl
@[simp] theorem State.fifoCharge_readBuf (t : Nat) : ((s.fifoCharge t).1).readBuf = s.readBuf := by unfold State.fifoCharge; split <;> rfl
@[simp] theorem State.fifoCharge_ggLatch (t : Nat) : ((s.fifoCharge t).1).ggLatch = s.ggLatch := by unfold State.fifoCharge; split <;> rfl
@[simp] theorem State.fifoCharge_status (t : Nat) : ((s.fifoCharge t).1).status = s.status := by unfold State.fifoCharge; split <;> rfl
@[simp] theorem State.fifoCharge_fifoLatency (t : Nat) : ((s.fifoCharge t).1).fifoLatency = s.fifoLatency := by unfold State.fifoCharge; split <;> rfl
@[simp] theorem State.fifoCharge_dmaType (t : Nat) : ((s.fifoCharge t).1).dmaType = s.dmaType := by unfold State.fifoCharge; split <;> rfl
@[simp] theorem State.fifoCharge_dmaRemaining (t : Nat) : ((s.fifoCharge t).1).dmaRemaining = s.dmaRemaining := by unfold State.fifoCharge; split <;> rfl
@[simp] theorem State.fifoCharge_dmaSource (t : Nat) : ((s.fifoCharge t).1).dmaSource = s.dmaSource := by unfold State.fifoCharge; split <;> rfl
@[simp] theorem State.fifoCharge_fillArmed (t : Nat) : ((s.fifoCharge t).1).fillArmed = s.fillArmed := by unfold State.fifoCharge; split <;> rfl
@[simp] theorem State.fifoCharge_fillByte (t : Nat) : ((s.fifoCharge t).1).fillByte = s.fillByte := by unfold State.fifoCharge; split <;> rfl
@[simp] theorem State.fifoCharge_dmaEndCycles (t : Nat) : ((s.fifoCharge t).1).dmaEndCycles = s.dmaEndCycles := by unfold State.fifoCharge; split <;> rfl
@[simp] theorem State.fifoCharge_deferredCtrl (t : Nat) : ((s.fifoCharge t).1).deferredCtrl = s.deferredCtrl := by unfold State.fifoCharge; split <;> rfl
@[simp] theorem State.fifoCharge_hvLatch (t : Nat) : ((s.fifoCharge t).1).hvLatch = s.hvLatch := by unfold State.fifoCharge; split <;> rfl
@[simp] theorem State.fifoCharge_lastT (t : Nat) : ((s.fifoCharge t).1).lastT = s.lastT := by unfold State.fifoCharge; split <;> rfl
@[simp] theorem State.fifoCharge_vram (t : Nat) : ((s.fifoCharge t).1).vram = s.vram := by unfold State.fifoCharge; split <;> rfl
@[simp] theorem State.fifoCharge_cram (t : Nat) : ((s.fifoCharge t).1).cram = s.cram := by unfold State.fifoCharge; split <;> rfl
@[simp] theorem State.fifoCharge_vsram (t : Nat) : ((s.fifoCharge t).1).vsram = s.vsram := by unfold State.fifoCharge; split <;> rfl
@[simp] theorem State.fifoCharge_sat (t : Nat) : ((s.fifoCharge t).1).sat = s.sat := by unfold State.fifoCharge; split <;> rfl
@[simp] theorem State.fifoCharge_dirty (t : Nat) : ((s.fifoCharge t).1).dirty = s.dirty := by unfold State.fifoCharge; split <;> rfl
@[simp] theorem State.fifoCharge_renderMode (t : Nat) : ((s.fifoCharge t).1).renderMode = s.renderMode := by unfold State.fifoCharge; split <;> rfl
@[simp] theorem State.fifoCharge_displayLines (t : Nat) : ((s.fifoCharge t).1).displayLines = s.displayLines := by unfold State.fifoCharge; split <;> rfl
@[simp] theorem State.fifoCharge_backdropColor (t : Nat) : ((s.fifoCharge t).1).backdropColor = s.backdropColor := by unfold State.fifoCharge; split <;> rfl
@[simp] theorem State.fifoCharge_faulted (t : Nat) : ((s.fifoCharge t).1).faulted = s.faulted := by unfold State.fifoCharge; split <;> rfl
@[simp] theorem State.fifoCharge_refused (t : Nat) : ((s.fifoCharge t).1).refused = s.refused := by unfold State.fifoCharge; split <;> rfl
@[simp] theorem State.fifoCharge_cpuStuck (t : Nat) : ((s.fifoCharge t).1).cpuStuck = s.cpuStuck := by unfold State.fifoCharge; split <;> rfl
@[simp] theorem State.fifoCharge_inbox (t : Nat) : ((s.fifoCharge t).1).inbox = s.inbox := by unfold State.fifoCharge; split <;> rfl
@[simp] theorem State.fifoCharge_draws (t : Nat) : ((s.fifoCharge t).1).draws = s.draws := by unfold State.fifoCharge; split <;> rfl
@[simp] theorem State.fifoCharge_out (t : Nat) : ((s.fifoCharge t).1).out = s.out := by unfold State.fifoCharge; split <;> rfl
@[simp] theorem State.fifoCharge_rd (t : Nat) (j : BitVec 5) : ((s.fifoCharge t).1).rd j = s.rd j := by
  simp [State.rd]
@[simp] theorem State.fifoCharge_m5 (t : Nat) : ((s.fifoCharge t).1).m5 = s.m5 := by simp [State.m5]
@[simp] theorem State.fifoCharge_h40 (t : Nat) : ((s.fifoCharge t).1).h40 = s.h40 := by simp [State.h40, State.m5]
@[simp] theorem State.fifoCharge_inc (t : Nat) : ((s.fifoCharge t).1).inc = s.inc := by
  unfold State.inc; simp only [State.fifoCharge_m5, State.fifoCharge_rd]
@[simp] theorem State.fifoCharge_dispEn (t : Nat) : ((s.fifoCharge t).1).dispEn = s.dispEn := by simp [State.dispEn]
@[simp] theorem State.fifoCharge_backdropIdx (t : Nat) : ((s.fifoCharge t).1).backdropIdx = s.backdropIdx := by
  unfold State.backdropIdx; simp only [State.fifoCharge_m5, State.fifoCharge_rd]
@[simp] theorem State.fifoCharge_satRange (t : Nat) : ((s.fifoCharge t).1).satRange = s.satRange := State.satRange_congr (by simp) (by simp)
@[simp] theorem State.fifoCharge_logIdx (t : Nat) (x : Word) : ((s.fifoCharge t).1).logIdx x = s.logIdx x := by
  unfold State.logIdx; rw [State.fifoCharge_cfg]
@[simp] theorem State.fifoCharge_inSat (t : Nat) (x : Word) : ((s.fifoCharge t).1).inSat x = s.inSat x := by
  simp [State.inSat]
@[simp] theorem State.fifoCharge_satIdx (t : Nat) (x : Word) : ((s.fifoCharge t).1).satIdx x = s.satIdx x := by
  simp [State.satIdx]
@[simp] theorem State.fifoCharge_target (t : Nat) : ((s.fifoCharge t).1).target = s.target := by simp [State.target]

/-! ### fifoNoteWrite -/

@[simp] theorem State.fifoNoteWrite_cfg (t : Nat) : ((s.fifoNoteWrite t).1).cfg = s.cfg := by
  unfold State.fifoNoteWrite; split <;> simp
@[simp] theorem State.fifoNoteWrite_reg (t : Nat) : ((s.fifoNoteWrite t).1).reg = s.reg := by
  unfold State.fifoNoteWrite; split <;> simp
@[simp] theorem State.fifoNoteWrite_addr (t : Nat) : ((s.fifoNoteWrite t).1).addr = s.addr := by
  unfold State.fifoNoteWrite; split <;> simp
@[simp] theorem State.fifoNoteWrite_code (t : Nat) : ((s.fifoNoteWrite t).1).code = s.code := by
  unfold State.fifoNoteWrite; split <;> simp
@[simp] theorem State.fifoNoteWrite_pending (t : Nat) : ((s.fifoNoteWrite t).1).pending = s.pending := by
  unfold State.fifoNoteWrite; split <;> simp
@[simp] theorem State.fifoNoteWrite_ctrlLatch (t : Nat) : ((s.fifoNoteWrite t).1).ctrlLatch = s.ctrlLatch := by
  unfold State.fifoNoteWrite; split <;> simp
@[simp] theorem State.fifoNoteWrite_readBuf (t : Nat) : ((s.fifoNoteWrite t).1).readBuf = s.readBuf := by
  unfold State.fifoNoteWrite; split <;> simp
@[simp] theorem State.fifoNoteWrite_ggLatch (t : Nat) : ((s.fifoNoteWrite t).1).ggLatch = s.ggLatch := by
  unfold State.fifoNoteWrite; split <;> simp
@[simp] theorem State.fifoNoteWrite_status (t : Nat) : ((s.fifoNoteWrite t).1).status = s.status := by
  unfold State.fifoNoteWrite; split <;> simp
@[simp] theorem State.fifoNoteWrite_fifoLatency (t : Nat) : ((s.fifoNoteWrite t).1).fifoLatency = s.fifoLatency := by
  unfold State.fifoNoteWrite; split <;> simp
@[simp] theorem State.fifoNoteWrite_dmaType (t : Nat) : ((s.fifoNoteWrite t).1).dmaType = s.dmaType := by
  unfold State.fifoNoteWrite; split <;> simp
@[simp] theorem State.fifoNoteWrite_dmaRemaining (t : Nat) : ((s.fifoNoteWrite t).1).dmaRemaining = s.dmaRemaining := by
  unfold State.fifoNoteWrite; split <;> simp
@[simp] theorem State.fifoNoteWrite_dmaSource (t : Nat) : ((s.fifoNoteWrite t).1).dmaSource = s.dmaSource := by
  unfold State.fifoNoteWrite; split <;> simp
@[simp] theorem State.fifoNoteWrite_fillArmed (t : Nat) : ((s.fifoNoteWrite t).1).fillArmed = s.fillArmed := by
  unfold State.fifoNoteWrite; split <;> simp
@[simp] theorem State.fifoNoteWrite_fillByte (t : Nat) : ((s.fifoNoteWrite t).1).fillByte = s.fillByte := by
  unfold State.fifoNoteWrite; split <;> simp
@[simp] theorem State.fifoNoteWrite_dmaEndCycles (t : Nat) : ((s.fifoNoteWrite t).1).dmaEndCycles = s.dmaEndCycles := by
  unfold State.fifoNoteWrite; split <;> simp
@[simp] theorem State.fifoNoteWrite_deferredCtrl (t : Nat) : ((s.fifoNoteWrite t).1).deferredCtrl = s.deferredCtrl := by
  unfold State.fifoNoteWrite; split <;> simp
@[simp] theorem State.fifoNoteWrite_hvLatch (t : Nat) : ((s.fifoNoteWrite t).1).hvLatch = s.hvLatch := by
  unfold State.fifoNoteWrite; split <;> simp
@[simp] theorem State.fifoNoteWrite_lastT (t : Nat) : ((s.fifoNoteWrite t).1).lastT = s.lastT := by
  unfold State.fifoNoteWrite; split <;> simp
@[simp] theorem State.fifoNoteWrite_vram (t : Nat) : ((s.fifoNoteWrite t).1).vram = s.vram := by
  unfold State.fifoNoteWrite; split <;> simp
@[simp] theorem State.fifoNoteWrite_cram (t : Nat) : ((s.fifoNoteWrite t).1).cram = s.cram := by
  unfold State.fifoNoteWrite; split <;> simp
@[simp] theorem State.fifoNoteWrite_vsram (t : Nat) : ((s.fifoNoteWrite t).1).vsram = s.vsram := by
  unfold State.fifoNoteWrite; split <;> simp
@[simp] theorem State.fifoNoteWrite_sat (t : Nat) : ((s.fifoNoteWrite t).1).sat = s.sat := by
  unfold State.fifoNoteWrite; split <;> simp
@[simp] theorem State.fifoNoteWrite_dirty (t : Nat) : ((s.fifoNoteWrite t).1).dirty = s.dirty := by
  unfold State.fifoNoteWrite; split <;> simp
@[simp] theorem State.fifoNoteWrite_renderMode (t : Nat) : ((s.fifoNoteWrite t).1).renderMode = s.renderMode := by
  unfold State.fifoNoteWrite; split <;> simp
@[simp] theorem State.fifoNoteWrite_displayLines (t : Nat) : ((s.fifoNoteWrite t).1).displayLines = s.displayLines := by
  unfold State.fifoNoteWrite; split <;> simp
@[simp] theorem State.fifoNoteWrite_backdropColor (t : Nat) : ((s.fifoNoteWrite t).1).backdropColor = s.backdropColor := by
  unfold State.fifoNoteWrite; split <;> simp
@[simp] theorem State.fifoNoteWrite_faulted (t : Nat) : ((s.fifoNoteWrite t).1).faulted = s.faulted := by
  unfold State.fifoNoteWrite; split <;> simp
@[simp] theorem State.fifoNoteWrite_refused (t : Nat) : ((s.fifoNoteWrite t).1).refused = s.refused := by
  unfold State.fifoNoteWrite; split <;> simp
@[simp] theorem State.fifoNoteWrite_cpuStuck (t : Nat) : ((s.fifoNoteWrite t).1).cpuStuck = s.cpuStuck := by
  unfold State.fifoNoteWrite; split <;> simp
@[simp] theorem State.fifoNoteWrite_inbox (t : Nat) : ((s.fifoNoteWrite t).1).inbox = s.inbox := by
  unfold State.fifoNoteWrite; split <;> simp
@[simp] theorem State.fifoNoteWrite_draws (t : Nat) : ((s.fifoNoteWrite t).1).draws = s.draws := by
  unfold State.fifoNoteWrite; split <;> simp
@[simp] theorem State.fifoNoteWrite_out (t : Nat) : ((s.fifoNoteWrite t).1).out = s.out := by
  unfold State.fifoNoteWrite; split <;> simp
@[simp] theorem State.fifoNoteWrite_rd (t : Nat) (j : BitVec 5) : ((s.fifoNoteWrite t).1).rd j = s.rd j := by
  simp [State.rd]
@[simp] theorem State.fifoNoteWrite_m5 (t : Nat) : ((s.fifoNoteWrite t).1).m5 = s.m5 := by simp [State.m5]
@[simp] theorem State.fifoNoteWrite_h40 (t : Nat) : ((s.fifoNoteWrite t).1).h40 = s.h40 := by simp [State.h40, State.m5]
@[simp] theorem State.fifoNoteWrite_inc (t : Nat) : ((s.fifoNoteWrite t).1).inc = s.inc := by
  unfold State.inc; simp only [State.fifoNoteWrite_m5, State.fifoNoteWrite_rd]
@[simp] theorem State.fifoNoteWrite_dispEn (t : Nat) : ((s.fifoNoteWrite t).1).dispEn = s.dispEn := by simp [State.dispEn]
@[simp] theorem State.fifoNoteWrite_backdropIdx (t : Nat) : ((s.fifoNoteWrite t).1).backdropIdx = s.backdropIdx := by
  unfold State.backdropIdx; simp only [State.fifoNoteWrite_m5, State.fifoNoteWrite_rd]
@[simp] theorem State.fifoNoteWrite_satRange (t : Nat) : ((s.fifoNoteWrite t).1).satRange = s.satRange := State.satRange_congr (by simp) (by simp)
@[simp] theorem State.fifoNoteWrite_logIdx (t : Nat) (x : Word) : ((s.fifoNoteWrite t).1).logIdx x = s.logIdx x := by
  unfold State.logIdx; rw [State.fifoNoteWrite_cfg]
@[simp] theorem State.fifoNoteWrite_inSat (t : Nat) (x : Word) : ((s.fifoNoteWrite t).1).inSat x = s.inSat x := by
  simp [State.inSat]
@[simp] theorem State.fifoNoteWrite_satIdx (t : Nat) (x : Word) : ((s.fifoNoteWrite t).1).satIdx x = s.satIdx x := by
  simp [State.satIdx]
@[simp] theorem State.fifoNoteWrite_target (t : Nat) : ((s.fifoNoteWrite t).1).target = s.target := by simp [State.target]

/-! ### dmaBusyUpdate -/

@[simp] theorem State.dmaBusyUpdate_cfg (t : Nat) : (s.dmaBusyUpdate t).cfg = s.cfg := by
  unfold State.dmaBusyUpdate; split <;> rfl
@[simp] theorem State.dmaBusyUpdate_reg (t : Nat) : (s.dmaBusyUpdate t).reg = s.reg := by
  unfold State.dmaBusyUpdate; split <;> rfl
@[simp] theorem State.dmaBusyUpdate_addr (t : Nat) : (s.dmaBusyUpdate t).addr = s.addr := by
  unfold State.dmaBusyUpdate; split <;> rfl
@[simp] theorem State.dmaBusyUpdate_code (t : Nat) : (s.dmaBusyUpdate t).code = s.code := by
  unfold State.dmaBusyUpdate; split <;> rfl
@[simp] theorem State.dmaBusyUpdate_pending (t : Nat) : (s.dmaBusyUpdate t).pending = s.pending := by
  unfold State.dmaBusyUpdate; split <;> rfl
@[simp] theorem State.dmaBusyUpdate_ctrlLatch (t : Nat) : (s.dmaBusyUpdate t).ctrlLatch = s.ctrlLatch := by
  unfold State.dmaBusyUpdate; split <;> rfl
@[simp] theorem State.dmaBusyUpdate_readBuf (t : Nat) : (s.dmaBusyUpdate t).readBuf = s.readBuf := by
  unfold State.dmaBusyUpdate; split <;> rfl
@[simp] theorem State.dmaBusyUpdate_ggLatch (t : Nat) : (s.dmaBusyUpdate t).ggLatch = s.ggLatch := by
  unfold State.dmaBusyUpdate; split <;> rfl
@[simp] theorem State.dmaBusyUpdate_fifoCount (t : Nat) : (s.dmaBusyUpdate t).fifoCount = s.fifoCount := by
  unfold State.dmaBusyUpdate; split <;> rfl
@[simp] theorem State.dmaBusyUpdate_fifoLastWrite (t : Nat) : (s.dmaBusyUpdate t).fifoLastWrite = s.fifoLastWrite := by
  unfold State.dmaBusyUpdate; split <;> rfl
@[simp] theorem State.dmaBusyUpdate_fifoLatency (t : Nat) : (s.dmaBusyUpdate t).fifoLatency = s.fifoLatency := by
  unfold State.dmaBusyUpdate; split <;> rfl
@[simp] theorem State.dmaBusyUpdate_dmaType (t : Nat) : (s.dmaBusyUpdate t).dmaType = s.dmaType := by
  unfold State.dmaBusyUpdate; split <;> rfl
@[simp] theorem State.dmaBusyUpdate_dmaRemaining (t : Nat) : (s.dmaBusyUpdate t).dmaRemaining = s.dmaRemaining := by
  unfold State.dmaBusyUpdate; split <;> rfl
@[simp] theorem State.dmaBusyUpdate_dmaSource (t : Nat) : (s.dmaBusyUpdate t).dmaSource = s.dmaSource := by
  unfold State.dmaBusyUpdate; split <;> rfl
@[simp] theorem State.dmaBusyUpdate_fillArmed (t : Nat) : (s.dmaBusyUpdate t).fillArmed = s.fillArmed := by
  unfold State.dmaBusyUpdate; split <;> rfl
@[simp] theorem State.dmaBusyUpdate_fillByte (t : Nat) : (s.dmaBusyUpdate t).fillByte = s.fillByte := by
  unfold State.dmaBusyUpdate; split <;> rfl
@[simp] theorem State.dmaBusyUpdate_dmaEndCycles (t : Nat) : (s.dmaBusyUpdate t).dmaEndCycles = s.dmaEndCycles := by
  unfold State.dmaBusyUpdate; split <;> rfl
@[simp] theorem State.dmaBusyUpdate_deferredCtrl (t : Nat) : (s.dmaBusyUpdate t).deferredCtrl = s.deferredCtrl := by
  unfold State.dmaBusyUpdate; split <;> rfl
@[simp] theorem State.dmaBusyUpdate_hvLatch (t : Nat) : (s.dmaBusyUpdate t).hvLatch = s.hvLatch := by
  unfold State.dmaBusyUpdate; split <;> rfl
@[simp] theorem State.dmaBusyUpdate_lastT (t : Nat) : (s.dmaBusyUpdate t).lastT = s.lastT := by
  unfold State.dmaBusyUpdate; split <;> rfl
@[simp] theorem State.dmaBusyUpdate_vram (t : Nat) : (s.dmaBusyUpdate t).vram = s.vram := by
  unfold State.dmaBusyUpdate; split <;> rfl
@[simp] theorem State.dmaBusyUpdate_cram (t : Nat) : (s.dmaBusyUpdate t).cram = s.cram := by
  unfold State.dmaBusyUpdate; split <;> rfl
@[simp] theorem State.dmaBusyUpdate_vsram (t : Nat) : (s.dmaBusyUpdate t).vsram = s.vsram := by
  unfold State.dmaBusyUpdate; split <;> rfl
@[simp] theorem State.dmaBusyUpdate_sat (t : Nat) : (s.dmaBusyUpdate t).sat = s.sat := by
  unfold State.dmaBusyUpdate; split <;> rfl
@[simp] theorem State.dmaBusyUpdate_dirty (t : Nat) : (s.dmaBusyUpdate t).dirty = s.dirty := by
  unfold State.dmaBusyUpdate; split <;> rfl
@[simp] theorem State.dmaBusyUpdate_renderMode (t : Nat) : (s.dmaBusyUpdate t).renderMode = s.renderMode := by
  unfold State.dmaBusyUpdate; split <;> rfl
@[simp] theorem State.dmaBusyUpdate_displayLines (t : Nat) : (s.dmaBusyUpdate t).displayLines = s.displayLines := by
  unfold State.dmaBusyUpdate; split <;> rfl
@[simp] theorem State.dmaBusyUpdate_backdropColor (t : Nat) : (s.dmaBusyUpdate t).backdropColor = s.backdropColor := by
  unfold State.dmaBusyUpdate; split <;> rfl
@[simp] theorem State.dmaBusyUpdate_faulted (t : Nat) : (s.dmaBusyUpdate t).faulted = s.faulted := by
  unfold State.dmaBusyUpdate; split <;> rfl
@[simp] theorem State.dmaBusyUpdate_refused (t : Nat) : (s.dmaBusyUpdate t).refused = s.refused := by
  unfold State.dmaBusyUpdate; split <;> rfl
@[simp] theorem State.dmaBusyUpdate_cpuStuck (t : Nat) : (s.dmaBusyUpdate t).cpuStuck = s.cpuStuck := by
  unfold State.dmaBusyUpdate; split <;> rfl
@[simp] theorem State.dmaBusyUpdate_inbox (t : Nat) : (s.dmaBusyUpdate t).inbox = s.inbox := by
  unfold State.dmaBusyUpdate; split <;> rfl
@[simp] theorem State.dmaBusyUpdate_draws (t : Nat) : (s.dmaBusyUpdate t).draws = s.draws := by
  unfold State.dmaBusyUpdate; split <;> rfl
@[simp] theorem State.dmaBusyUpdate_out (t : Nat) : (s.dmaBusyUpdate t).out = s.out := by
  unfold State.dmaBusyUpdate; split <;> rfl
@[simp] theorem State.dmaBusyUpdate_rd (t : Nat) (j : BitVec 5) : (s.dmaBusyUpdate t).rd j = s.rd j := by
  simp [State.rd]
@[simp] theorem State.dmaBusyUpdate_m5 (t : Nat) : (s.dmaBusyUpdate t).m5 = s.m5 := by simp [State.m5]
@[simp] theorem State.dmaBusyUpdate_h40 (t : Nat) : (s.dmaBusyUpdate t).h40 = s.h40 := by simp [State.h40, State.m5]
@[simp] theorem State.dmaBusyUpdate_inc (t : Nat) : (s.dmaBusyUpdate t).inc = s.inc := by
  unfold State.inc; simp only [State.dmaBusyUpdate_m5, State.dmaBusyUpdate_rd]
@[simp] theorem State.dmaBusyUpdate_dispEn (t : Nat) : (s.dmaBusyUpdate t).dispEn = s.dispEn := by simp [State.dispEn]
@[simp] theorem State.dmaBusyUpdate_backdropIdx (t : Nat) : (s.dmaBusyUpdate t).backdropIdx = s.backdropIdx := by
  unfold State.backdropIdx; simp only [State.dmaBusyUpdate_m5, State.dmaBusyUpdate_rd]
@[simp] theorem State.dmaBusyUpdate_satRange (t : Nat) : (s.dmaBusyUpdate t).satRange = s.satRange := State.satRange_congr (by simp) (by simp)
@[simp] theorem State.dmaBusyUpdate_logIdx (t : Nat) (x : Word) : (s.dmaBusyUpdate t).logIdx x = s.logIdx x := by
  unfold State.logIdx; rw [State.dmaBusyUpdate_cfg]
@[simp] theorem State.dmaBusyUpdate_inSat (t : Nat) (x : Word) : (s.dmaBusyUpdate t).inSat x = s.inSat x := by
  simp [State.inSat]
@[simp] theorem State.dmaBusyUpdate_satIdx (t : Nat) (x : Word) : (s.dmaBusyUpdate t).satIdx x = s.satIdx x := by
  simp [State.satIdx]
@[simp] theorem State.dmaBusyUpdate_target (t : Nat) : (s.dmaBusyUpdate t).target = s.target := by simp [State.target]

/-! ### releaseHv -/

@[simp] theorem State.releaseHv_cfg (i : BitVec 5) (d : Byte) : (s.releaseHv i d).cfg = s.cfg := by unfold State.releaseHv; split <;> rfl
@[simp] theorem State.releaseHv_reg (i : BitVec 5) (d : Byte) : (s.releaseHv i d).reg = s.reg := by unfold State.releaseHv; split <;> rfl
@[simp] theorem State.releaseHv_addr (i : BitVec 5) (d : Byte) : (s.releaseHv i d).addr = s.addr := by unfold State.releaseHv; split <;> rfl
@[simp] theorem State.releaseHv_code (i : BitVec 5) (d : Byte) : (s.releaseHv i d).code = s.code := by unfold State.releaseHv; split <;> rfl
@[simp] theorem State.releaseHv_pending (i : BitVec 5) (d : Byte) : (s.releaseHv i d).pending = s.pending := by unfold State.releaseHv; split <;> rfl
@[simp] theorem State.releaseHv_ctrlLatch (i : BitVec 5) (d : Byte) : (s.releaseHv i d).ctrlLatch = s.ctrlLatch := by unfold State.releaseHv; split <;> rfl
@[simp] theorem State.releaseHv_readBuf (i : BitVec 5) (d : Byte) : (s.releaseHv i d).readBuf = s.readBuf := by unfold State.releaseHv; split <;> rfl
@[simp] theorem State.releaseHv_ggLatch (i : BitVec 5) (d : Byte) : (s.releaseHv i d).ggLatch = s.ggLatch := by unfold State.releaseHv; split <;> rfl
@[simp] theorem State.releaseHv_status (i : BitVec 5) (d : Byte) : (s.releaseHv i d).status = s.status := by unfold State.releaseHv; split <;> rfl
@[simp] theorem State.releaseHv_fifoCount (i : BitVec 5) (d : Byte) : (s.releaseHv i d).fifoCount = s.fifoCount := by unfold State.releaseHv; split <;> rfl
@[simp] theorem State.releaseHv_fifoLastWrite (i : BitVec 5) (d : Byte) : (s.releaseHv i d).fifoLastWrite = s.fifoLastWrite := by unfold State.releaseHv; split <;> rfl
@[simp] theorem State.releaseHv_fifoLatency (i : BitVec 5) (d : Byte) : (s.releaseHv i d).fifoLatency = s.fifoLatency := by unfold State.releaseHv; split <;> rfl
@[simp] theorem State.releaseHv_dmaType (i : BitVec 5) (d : Byte) : (s.releaseHv i d).dmaType = s.dmaType := by unfold State.releaseHv; split <;> rfl
@[simp] theorem State.releaseHv_dmaRemaining (i : BitVec 5) (d : Byte) : (s.releaseHv i d).dmaRemaining = s.dmaRemaining := by unfold State.releaseHv; split <;> rfl
@[simp] theorem State.releaseHv_dmaSource (i : BitVec 5) (d : Byte) : (s.releaseHv i d).dmaSource = s.dmaSource := by unfold State.releaseHv; split <;> rfl
@[simp] theorem State.releaseHv_fillArmed (i : BitVec 5) (d : Byte) : (s.releaseHv i d).fillArmed = s.fillArmed := by unfold State.releaseHv; split <;> rfl
@[simp] theorem State.releaseHv_fillByte (i : BitVec 5) (d : Byte) : (s.releaseHv i d).fillByte = s.fillByte := by unfold State.releaseHv; split <;> rfl
@[simp] theorem State.releaseHv_dmaEndCycles (i : BitVec 5) (d : Byte) : (s.releaseHv i d).dmaEndCycles = s.dmaEndCycles := by unfold State.releaseHv; split <;> rfl
@[simp] theorem State.releaseHv_deferredCtrl (i : BitVec 5) (d : Byte) : (s.releaseHv i d).deferredCtrl = s.deferredCtrl := by unfold State.releaseHv; split <;> rfl
@[simp] theorem State.releaseHv_lastT (i : BitVec 5) (d : Byte) : (s.releaseHv i d).lastT = s.lastT := by unfold State.releaseHv; split <;> rfl
@[simp] theorem State.releaseHv_vram (i : BitVec 5) (d : Byte) : (s.releaseHv i d).vram = s.vram := by unfold State.releaseHv; split <;> rfl
@[simp] theorem State.releaseHv_cram (i : BitVec 5) (d : Byte) : (s.releaseHv i d).cram = s.cram := by unfold State.releaseHv; split <;> rfl
@[simp] theorem State.releaseHv_vsram (i : BitVec 5) (d : Byte) : (s.releaseHv i d).vsram = s.vsram := by unfold State.releaseHv; split <;> rfl
@[simp] theorem State.releaseHv_sat (i : BitVec 5) (d : Byte) : (s.releaseHv i d).sat = s.sat := by unfold State.releaseHv; split <;> rfl
@[simp] theorem State.releaseHv_dirty (i : BitVec 5) (d : Byte) : (s.releaseHv i d).dirty = s.dirty := by unfold State.releaseHv; split <;> rfl
@[simp] theorem State.releaseHv_renderMode (i : BitVec 5) (d : Byte) : (s.releaseHv i d).renderMode = s.renderMode := by unfold State.releaseHv; split <;> rfl
@[simp] theorem State.releaseHv_displayLines (i : BitVec 5) (d : Byte) : (s.releaseHv i d).displayLines = s.displayLines := by unfold State.releaseHv; split <;> rfl
@[simp] theorem State.releaseHv_backdropColor (i : BitVec 5) (d : Byte) : (s.releaseHv i d).backdropColor = s.backdropColor := by unfold State.releaseHv; split <;> rfl
@[simp] theorem State.releaseHv_faulted (i : BitVec 5) (d : Byte) : (s.releaseHv i d).faulted = s.faulted := by unfold State.releaseHv; split <;> rfl
@[simp] theorem State.releaseHv_refused (i : BitVec 5) (d : Byte) : (s.releaseHv i d).refused = s.refused := by unfold State.releaseHv; split <;> rfl
@[simp] theorem State.releaseHv_cpuStuck (i : BitVec 5) (d : Byte) : (s.releaseHv i d).cpuStuck = s.cpuStuck := by unfold State.releaseHv; split <;> rfl
@[simp] theorem State.releaseHv_inbox (i : BitVec 5) (d : Byte) : (s.releaseHv i d).inbox = s.inbox := by unfold State.releaseHv; split <;> rfl
@[simp] theorem State.releaseHv_draws (i : BitVec 5) (d : Byte) : (s.releaseHv i d).draws = s.draws := by unfold State.releaseHv; split <;> rfl
@[simp] theorem State.releaseHv_out (i : BitVec 5) (d : Byte) : (s.releaseHv i d).out = s.out := by unfold State.releaseHv; split <;> rfl
@[simp] theorem State.releaseHv_rd (i : BitVec 5) (d : Byte) (j : BitVec 5) : (s.releaseHv i d).rd j = s.rd j := by
  simp [State.rd]
@[simp] theorem State.releaseHv_m5 (i : BitVec 5) (d : Byte) : (s.releaseHv i d).m5 = s.m5 := by simp [State.m5]
@[simp] theorem State.releaseHv_h40 (i : BitVec 5) (d : Byte) : (s.releaseHv i d).h40 = s.h40 := by simp [State.h40, State.m5]
@[simp] theorem State.releaseHv_inc (i : BitVec 5) (d : Byte) : (s.releaseHv i d).inc = s.inc := by
  unfold State.inc; simp only [State.releaseHv_m5, State.releaseHv_rd]
@[simp] theorem State.releaseHv_dispEn (i : BitVec 5) (d : Byte) : (s.releaseHv i d).dispEn = s.dispEn := by simp [State.dispEn]
@[simp] theorem State.releaseHv_backdropIdx (i : BitVec 5) (d : Byte) : (s.releaseHv i d).backdropIdx = s.backdropIdx := by
  unfold State.backdropIdx; simp only [State.releaseHv_m5, State.releaseHv_rd]
@[simp] theorem State.releaseHv_satRange (i : BitVec 5) (d : Byte) : (s.releaseHv i d).satRange = s.satRange := State.satRange_congr (by simp) (by simp)
@[simp] theorem State.releaseHv_logIdx (i : BitVec 5) (d : Byte) (x : Word) : (s.releaseHv i d).logIdx x = s.logIdx x := by
  unfold State.logIdx; rw [State.releaseHv_cfg]
@[simp] theorem State.releaseHv_inSat (i : BitVec 5) (d : Byte) (x : Word) : (s.releaseHv i d).inSat x = s.inSat x := by
  simp [State.inSat]
@[simp] theorem State.releaseHv_satIdx (i : BitVec 5) (d : Byte) (x : Word) : (s.releaseHv i d).satIdx x = s.satIdx x := by
  simp [State.satIdx]
@[simp] theorem State.releaseHv_target (i : BitVec 5) (d : Byte) : (s.releaseHv i d).target = s.target := by simp [State.target]

/-! ### fifoOnMode -/

@[simp] theorem State.fifoOnMode_cfg (b : Bool) (t : Nat) : (s.fifoOnMode b t).cfg = s.cfg := by
  unfold State.fifoOnMode; (repeat' split) <;> rfl
@[simp] theorem State.fifoOnMode_reg (b : Bool) (t : Nat) : (s.fifoOnMode b t).reg = s.reg := by
  unfold State.fifoOnMode; (repeat' split) <;> rfl
@[simp] theorem State.fifoOnMode_addr (b : Bool) (t : Nat) : (s.fifoOnMode b t).addr = s.addr := by
  unfold State.fifoOnMode; (repeat' split) <;> rfl
@[simp] theorem State.fifoOnMode_code (b : Bool) (t : Nat) : (s.fifoOnMode b t).code = s.code := by
  unfold State.fifoOnMode; (repeat' split) <;> rfl
@[simp] theorem State.fifoOnMode_pending (b : Bool) (t : Nat) : (s.fifoOnMode b t).pending = s.pending := by
  unfold State.fifoOnMode; (repeat' split) <;> rfl
@[simp] theorem State.fifoOnMode_ctrlLatch (b : Bool) (t : Nat) : (s.fifoOnMode b t).ctrlLatch = s.ctrlLatch := by
  unfold State.fifoOnMode; (repeat' split) <;> rfl
@[simp] theorem State.fifoOnMode_readBuf (b : Bool) (t : Nat) : (s.fifoOnMode b t).readBuf = s.readBuf := by
  unfold State.fifoOnMode; (repeat' split) <;> rfl
@[simp] theorem State.fifoOnMode_ggLatch (b : Bool) (t : Nat) : (s.fifoOnMode b t).ggLatch = s.ggLatch := by
  unfold State.fifoOnMode; (repeat' split) <;> rfl
@[simp] theorem State.fifoOnMode_status (b : Bool) (t : Nat) : (s.fifoOnMode b t).status = s.status := by
  unfold State.fifoOnMode; (repeat' split) <;> rfl
@[simp] theorem State.fifoOnMode_fifoLatency (b : Bool) (t : Nat) : (s.fifoOnMode b t).fifoLatency = s.fifoLatency := by
  unfold State.fifoOnMode; (repeat' split) <;> rfl
@[simp] theorem State.fifoOnMode_dmaType (b : Bool) (t : Nat) : (s.fifoOnMode b t).dmaType = s.dmaType := by
  unfold State.fifoOnMode; (repeat' split) <;> rfl
@[simp] theorem State.fifoOnMode_dmaRemaining (b : Bool) (t : Nat) : (s.fifoOnMode b t).dmaRemaining = s.dmaRemaining := by
  unfold State.fifoOnMode; (repeat' split) <;> rfl
@[simp] theorem State.fifoOnMode_dmaSource (b : Bool) (t : Nat) : (s.fifoOnMode b t).dmaSource = s.dmaSource := by
  unfold State.fifoOnMode; (repeat' split) <;> rfl
@[simp] theorem State.fifoOnMode_fillArmed (b : Bool) (t : Nat) : (s.fifoOnMode b t).fillArmed = s.fillArmed := by
  unfold State.fifoOnMode; (repeat' split) <;> rfl
@[simp] theorem State.fifoOnMode_fillByte (b : Bool) (t : Nat) : (s.fifoOnMode b t).fillByte = s.fillByte := by
  unfold State.fifoOnMode; (repeat' split) <;> rfl
@[simp] theorem State.fifoOnMode_dmaEndCycles (b : Bool) (t : Nat) : (s.fifoOnMode b t).dmaEndCycles = s.dmaEndCycles := by
  unfold State.fifoOnMode; (repeat' split) <;> rfl
@[simp] theorem State.fifoOnMode_deferredCtrl (b : Bool) (t : Nat) : (s.fifoOnMode b t).deferredCtrl = s.deferredCtrl := by
  unfold State.fifoOnMode; (repeat' split) <;> rfl
@[simp] theorem State.fifoOnMode_hvLatch (b : Bool) (t : Nat) : (s.fifoOnMode b t).hvLatch = s.hvLatch := by
  unfold State.fifoOnMode; (repeat' split) <;> rfl
@[simp] theorem State.fifoOnMode_lastT (b : Bool) (t : Nat) : (s.fifoOnMode b t).lastT = s.lastT := by
  unfold State.fifoOnMode; (repeat' split) <;> rfl
@[simp] theorem State.fifoOnMode_vram (b : Bool) (t : Nat) : (s.fifoOnMode b t).vram = s.vram := by
  unfold State.fifoOnMode; (repeat' split) <;> rfl
@[simp] theorem State.fifoOnMode_cram (b : Bool) (t : Nat) : (s.fifoOnMode b t).cram = s.cram := by
  unfold State.fifoOnMode; (repeat' split) <;> rfl
@[simp] theorem State.fifoOnMode_vsram (b : Bool) (t : Nat) : (s.fifoOnMode b t).vsram = s.vsram := by
  unfold State.fifoOnMode; (repeat' split) <;> rfl
@[simp] theorem State.fifoOnMode_sat (b : Bool) (t : Nat) : (s.fifoOnMode b t).sat = s.sat := by
  unfold State.fifoOnMode; (repeat' split) <;> rfl
@[simp] theorem State.fifoOnMode_dirty (b : Bool) (t : Nat) : (s.fifoOnMode b t).dirty = s.dirty := by
  unfold State.fifoOnMode; (repeat' split) <;> rfl
@[simp] theorem State.fifoOnMode_renderMode (b : Bool) (t : Nat) : (s.fifoOnMode b t).renderMode = s.renderMode := by
  unfold State.fifoOnMode; (repeat' split) <;> rfl
@[simp] theorem State.fifoOnMode_displayLines (b : Bool) (t : Nat) : (s.fifoOnMode b t).displayLines = s.displayLines := by
  unfold State.fifoOnMode; (repeat' split) <;> rfl
@[simp] theorem State.fifoOnMode_backdropColor (b : Bool) (t : Nat) : (s.fifoOnMode b t).backdropColor = s.backdropColor := by
  unfold State.fifoOnMode; (repeat' split) <;> rfl
@[simp] theorem State.fifoOnMode_faulted (b : Bool) (t : Nat) : (s.fifoOnMode b t).faulted = s.faulted := by
  unfold State.fifoOnMode; (repeat' split) <;> rfl
@[simp] theorem State.fifoOnMode_refused (b : Bool) (t : Nat) : (s.fifoOnMode b t).refused = s.refused := by
  unfold State.fifoOnMode; (repeat' split) <;> rfl
@[simp] theorem State.fifoOnMode_cpuStuck (b : Bool) (t : Nat) : (s.fifoOnMode b t).cpuStuck = s.cpuStuck := by
  unfold State.fifoOnMode; (repeat' split) <;> rfl
@[simp] theorem State.fifoOnMode_inbox (b : Bool) (t : Nat) : (s.fifoOnMode b t).inbox = s.inbox := by
  unfold State.fifoOnMode; (repeat' split) <;> rfl
@[simp] theorem State.fifoOnMode_draws (b : Bool) (t : Nat) : (s.fifoOnMode b t).draws = s.draws := by
  unfold State.fifoOnMode; (repeat' split) <;> rfl
@[simp] theorem State.fifoOnMode_out (b : Bool) (t : Nat) : (s.fifoOnMode b t).out = s.out := by
  unfold State.fifoOnMode; (repeat' split) <;> rfl
@[simp] theorem State.fifoOnMode_rd (b : Bool) (t : Nat) (j : BitVec 5) : (s.fifoOnMode b t).rd j = s.rd j := by
  simp [State.rd]
@[simp] theorem State.fifoOnMode_m5 (b : Bool) (t : Nat) : (s.fifoOnMode b t).m5 = s.m5 := by simp [State.m5]
@[simp] theorem State.fifoOnMode_h40 (b : Bool) (t : Nat) : (s.fifoOnMode b t).h40 = s.h40 := by simp [State.h40, State.m5]
@[simp] theorem State.fifoOnMode_inc (b : Bool) (t : Nat) : (s.fifoOnMode b t).inc = s.inc := by
  unfold State.inc; simp only [State.fifoOnMode_m5, State.fifoOnMode_rd]
@[simp] theorem State.fifoOnMode_dispEn (b : Bool) (t : Nat) : (s.fifoOnMode b t).dispEn = s.dispEn := by simp [State.dispEn]
@[simp] theorem State.fifoOnMode_backdropIdx (b : Bool) (t : Nat) : (s.fifoOnMode b t).backdropIdx = s.backdropIdx := by
  unfold State.backdropIdx; simp only [State.fifoOnMode_m5, State.fifoOnMode_rd]
@[simp] theorem State.fifoOnMode_satRange (b : Bool) (t : Nat) : (s.fifoOnMode b t).satRange = s.satRange := State.satRange_congr (by simp) (by simp)
@[simp] theorem State.fifoOnMode_logIdx (b : Bool) (t : Nat) (x : Word) : (s.fifoOnMode b t).logIdx x = s.logIdx x := by
  unfold State.logIdx; rw [State.fifoOnMode_cfg]
@[simp] theorem State.fifoOnMode_inSat (b : Bool) (t : Nat) (x : Word) : (s.fifoOnMode b t).inSat x = s.inSat x := by
  simp [State.inSat]
@[simp] theorem State.fifoOnMode_satIdx (b : Bool) (t : Nat) (x : Word) : (s.fifoOnMode b t).satIdx x = s.satIdx x := by
  simp [State.satIdx]
@[simp] theorem State.fifoOnMode_target (b : Bool) (t : Nat) : (s.fifoOnMode b t).target = s.target := by simp [State.target]

/-! ### writeRegister -/

@[simp] theorem State.writeRegister_cfg (i : BitVec 5) (d : Byte) (t : Nat) : (s.writeRegister i d t).cfg = s.cfg := by
  unfold State.writeRegister; split <;> simp
@[simp] theorem State.writeRegister_addr (i : BitVec 5) (d : Byte) (t : Nat) : (s.writeRegister i d t).addr = s.addr := by
  unfold State.writeRegister; split <;> simp
@[simp] theorem State.writeRegister_code (i : BitVec 5) (d : Byte) (t : Nat) : (s.writeRegister i d t).code = s.code := by
  unfold State.writeRegister; split <;> simp
@[simp] theorem State.writeRegister_pending (i : BitVec 5) (d : Byte) (t : Nat) : (s.writeRegister i d t).pending = s.pending := by
  unfold State.writeRegister; split <;> simp
@[simp] theorem State.writeRegister_ctrlLatch (i : BitVec 5) (d : Byte) (t : Nat) : (s.writeRegister i d t).ctrlLatch = s.ctrlLatch := by
  unfold State.writeRegister; split <;> simp
@[simp] theorem State.writeRegister_readBuf (i : BitVec 5) (d : Byte) (t : Nat) : (s.writeRegister i d t).readBuf = s.readBuf := by
  unfold State.writeRegister; split <;> simp
@[simp] theorem State.writeRegister_ggLatch (i : BitVec 5) (d : Byte) (t : Nat) : (s.writeRegister i d t).ggLatch = s.ggLatch := by
  unfold State.writeRegister; split <;> simp
@[simp] theorem State.writeRegister_status (i : BitVec 5) (d : Byte) (t : Nat) : (s.writeRegister i d t).status = s.status := by
  unfold State.writeRegister; split <;> simp
@[simp] theorem State.writeRegister_fifoLatency (i : BitVec 5) (d : Byte) (t : Nat) : (s.writeRegister i d t).fifoLatency = s.fifoLatency := by
  unfold State.writeRegister; split <;> simp
@[simp] theorem State.writeRegister_dmaType (i : BitVec 5) (d : Byte) (t : Nat) : (s.writeRegister i d t).dmaType = s.dmaType := by
  unfold State.writeRegister; split <;> simp
@[simp] theorem State.writeRegister_dmaRemaining (i : BitVec 5) (d : Byte) (t : Nat) : (s.writeRegister i d t).dmaRemaining = s.dmaRemaining := by
  unfold State.writeRegister; split <;> simp
@[simp] theorem State.writeRegister_dmaSource (i : BitVec 5) (d : Byte) (t : Nat) : (s.writeRegister i d t).dmaSource = s.dmaSource := by
  unfold State.writeRegister; split <;> simp
@[simp] theorem State.writeRegister_fillArmed (i : BitVec 5) (d : Byte) (t : Nat) : (s.writeRegister i d t).fillArmed = s.fillArmed := by
  unfold State.writeRegister; split <;> simp
@[simp] theorem State.writeRegister_fillByte (i : BitVec 5) (d : Byte) (t : Nat) : (s.writeRegister i d t).fillByte = s.fillByte := by
  unfold State.writeRegister; split <;> simp
@[simp] theorem State.writeRegister_dmaEndCycles (i : BitVec 5) (d : Byte) (t : Nat) : (s.writeRegister i d t).dmaEndCycles = s.dmaEndCycles := by
  unfold State.writeRegister; split <;> simp
@[simp] theorem State.writeRegister_deferredCtrl (i : BitVec 5) (d : Byte) (t : Nat) : (s.writeRegister i d t).deferredCtrl = s.deferredCtrl := by
  unfold State.writeRegister; split <;> simp
@[simp] theorem State.writeRegister_lastT (i : BitVec 5) (d : Byte) (t : Nat) : (s.writeRegister i d t).lastT = s.lastT := by
  unfold State.writeRegister; split <;> simp
@[simp] theorem State.writeRegister_vram (i : BitVec 5) (d : Byte) (t : Nat) : (s.writeRegister i d t).vram = s.vram := by
  unfold State.writeRegister; split <;> simp
@[simp] theorem State.writeRegister_cram (i : BitVec 5) (d : Byte) (t : Nat) : (s.writeRegister i d t).cram = s.cram := by
  unfold State.writeRegister; split <;> simp
@[simp] theorem State.writeRegister_vsram (i : BitVec 5) (d : Byte) (t : Nat) : (s.writeRegister i d t).vsram = s.vsram := by
  unfold State.writeRegister; split <;> simp
@[simp] theorem State.writeRegister_sat (i : BitVec 5) (d : Byte) (t : Nat) : (s.writeRegister i d t).sat = s.sat := by
  unfold State.writeRegister; split <;> simp
@[simp] theorem State.writeRegister_dirty (i : BitVec 5) (d : Byte) (t : Nat) : (s.writeRegister i d t).dirty = s.dirty := by
  unfold State.writeRegister; split <;> simp
@[simp] theorem State.writeRegister_faulted (i : BitVec 5) (d : Byte) (t : Nat) : (s.writeRegister i d t).faulted = s.faulted := by
  unfold State.writeRegister; split <;> simp
@[simp] theorem State.writeRegister_refused (i : BitVec 5) (d : Byte) (t : Nat) : (s.writeRegister i d t).refused = s.refused := by
  unfold State.writeRegister; split <;> simp
@[simp] theorem State.writeRegister_cpuStuck (i : BitVec 5) (d : Byte) (t : Nat) : (s.writeRegister i d t).cpuStuck = s.cpuStuck := by
  unfold State.writeRegister; split <;> simp
@[simp] theorem State.writeRegister_inbox (i : BitVec 5) (d : Byte) (t : Nat) : (s.writeRegister i d t).inbox = s.inbox := by
  unfold State.writeRegister; split <;> simp
@[simp] theorem State.writeRegister_draws (i : BitVec 5) (d : Byte) (t : Nat) : (s.writeRegister i d t).draws = s.draws := by
  unfold State.writeRegister; split <;> simp
@[simp] theorem State.writeRegister_out (i : BitVec 5) (d : Byte) (t : Nat) : (s.writeRegister i d t).out = s.out := by
  unfold State.writeRegister; split <;> simp
@[simp] theorem State.writeRegister_logIdx (i : BitVec 5) (d : Byte) (t : Nat) (x : Word) : (s.writeRegister i d t).logIdx x = s.logIdx x := by
  unfold State.logIdx; rw [State.writeRegister_cfg]
@[simp] theorem State.writeRegister_target (i : BitVec 5) (d : Byte) (t : Nat) : (s.writeRegister i d t).target = s.target := by simp [State.target]

/-! ### unitBus -/

@[simp] theorem State.unitBus_cfg : (s.unitBus).cfg = s.cfg := by simp [State.unitBus]
@[simp] theorem State.unitBus_reg : (s.unitBus).reg = s.reg := by simp [State.unitBus]
@[simp] theorem State.unitBus_code : (s.unitBus).code = s.code := by simp [State.unitBus]
@[simp] theorem State.unitBus_pending : (s.unitBus).pending = s.pending := by simp [State.unitBus]
@[simp] theorem State.unitBus_ctrlLatch : (s.unitBus).ctrlLatch = s.ctrlLatch := by simp [State.unitBus]
@[simp] theorem State.unitBus_readBuf : (s.unitBus).readBuf = s.readBuf := by simp [State.unitBus]
@[simp] theorem State.unitBus_ggLatch : (s.unitBus).ggLatch = s.ggLatch := by simp [State.unitBus]
@[simp] theorem State.unitBus_status : (s.unitBus).status = s.status := by simp [State.unitBus]
@[simp] theorem State.unitBus_fifoCount : (s.unitBus).fifoCount = s.fifoCount := by simp [State.unitBus]
@[simp] theorem State.unitBus_fifoLastWrite : (s.unitBus).fifoLastWrite = s.fifoLastWrite := by simp [State.unitBus]
@[simp] theorem State.unitBus_fifoLatency : (s.unitBus).fifoLatency = s.fifoLatency := by simp [State.unitBus]
@[simp] theorem State.unitBus_dmaType : (s.unitBus).dmaType = s.dmaType := by simp [State.unitBus]
@[simp] theorem State.unitBus_dmaRemaining : (s.unitBus).dmaRemaining = s.dmaRemaining := by simp [State.unitBus]
@[simp] theorem State.unitBus_fillArmed : (s.unitBus).fillArmed = s.fillArmed := by simp [State.unitBus]
@[simp] theorem State.unitBus_fillByte : (s.unitBus).fillByte = s.fillByte := by simp [State.unitBus]
@[simp] theorem State.unitBus_dmaEndCycles : (s.unitBus).dmaEndCycles = s.dmaEndCycles := by simp [State.unitBus]
@[simp] theorem State.unitBus_deferredCtrl : (s.unitBus).deferredCtrl = s.deferredCtrl := by simp [State.unitBus]
@[simp] theorem State.unitBus_hvLatch : (s.unitBus).hvLatch = s.hvLatch := by simp [State.unitBus]
@[simp] theorem State.unitBus_lastT : (s.unitBus).lastT = s.lastT := by simp [State.unitBus]
@[simp] theorem State.unitBus_renderMode : (s.unitBus).renderMode = s.renderMode := by simp [State.unitBus]
@[simp] theorem State.unitBus_displayLines : (s.unitBus).displayLines = s.displayLines := by simp [State.unitBus]
@[simp] theorem State.unitBus_faulted : (s.unitBus).faulted = s.faulted := by simp [State.unitBus]
@[simp] theorem State.unitBus_refused : (s.unitBus).refused = s.refused := by simp [State.unitBus]
@[simp] theorem State.unitBus_cpuStuck : (s.unitBus).cpuStuck = s.cpuStuck := by simp [State.unitBus]
@[simp] theorem State.unitBus_inbox : (s.unitBus).inbox = s.inbox := by simp [State.unitBus]
@[simp] theorem State.unitBus_out : (s.unitBus).out = s.out := by simp [State.unitBus]
@[simp] theorem State.unitBus_rd (j : BitVec 5) : (s.unitBus).rd j = s.rd j := by
  simp [State.rd]
@[simp] theorem State.unitBus_m5 : (s.unitBus).m5 = s.m5 := by simp [State.m5]
@[simp] theorem State.unitBus_h40 : (s.unitBus).h40 = s.h40 := by simp [State.h40, State.m5]
@[simp] theorem State.unitBus_inc : (s.unitBus).inc = s.inc := by
  unfold State.inc; simp only [State.unitBus_m5, State.unitBus_rd]
@[simp] theorem State.unitBus_dispEn : (s.unitBus).dispEn = s.dispEn := by simp [State.dispEn]
@[simp] theorem State.unitBus_backdropIdx : (s.unitBus).backdropIdx = s.backdropIdx := by
  unfold State.backdropIdx; simp only [State.unitBus_m5, State.unitBus_rd]
@[simp] theorem State.unitBus_satRange : (s.unitBus).satRange = s.satRange := State.satRange_congr (by simp) (by simp)
@[simp] theorem State.unitBus_logIdx (x : Word) : (s.unitBus).logIdx x = s.logIdx x := by
  unfold State.logIdx; rw [State.unitBus_cfg]
@[simp] theorem State.unitBus_inSat (x : Word) : (s.unitBus).inSat x = s.inSat x := by
  simp [State.inSat]
@[simp] theorem State.unitBus_satIdx (x : Word) : (s.unitBus).satIdx x = s.satIdx x := by
  simp [State.satIdx]
@[simp] theorem State.unitBus_target : (s.unitBus).target = s.target := by simp [State.target]

/-! ### unitFill -/

@[simp] theorem State.unitFill_cfg : (s.unitFill).cfg = s.cfg := by simp [State.unitFill]
@[simp] theorem State.unitFill_reg : (s.unitFill).reg = s.reg := by simp [State.unitFill]
@[simp] theorem State.unitFill_code : (s.unitFill).code = s.code := by simp [State.unitFill]
@[simp] theorem State.unitFill_pending : (s.unitFill).pending = s.pending := by simp [State.unitFill]
@[simp] theorem State.unitFill_ctrlLatch : (s.unitFill).ctrlLatch = s.ctrlLatch := by simp [State.unitFill]
@[simp] theorem State.unitFill_readBuf : (s.unitFill).readBuf = s.readBuf := by simp [State.unitFill]
@[simp] theorem State.unitFill_ggLatch : (s.unitFill).ggLatch = s.ggLatch := by simp [State.unitFill]
@[simp] theorem State.unitFill_status : (s.unitFill).status = s.status := by simp [State.unitFill]
@[simp] theorem State.unitFill_fifoCount : (s.unitFill).fifoCount = s.fifoCount := by simp [State.unitFill]
@[simp] theorem State.unitFill_fifoLastWrite : (s.unitFill).fifoLastWrite = s.fifoLastWrite := by simp [State.unitFill]
@[simp] theorem State.unitFill_fifoLatency : (s.unitFill).fifoLatency = s.fifoLatency := by simp [State.unitFill]
@[simp] theorem State.unitFill_dmaType : (s.unitFill).dmaType = s.dmaType := by simp [State.unitFill]
@[simp] theorem State.unitFill_dmaRemaining : (s.unitFill).dmaRemaining = s.dmaRemaining := by simp [State.unitFill]
@[simp] theorem State.unitFill_dmaSource : (s.unitFill).dmaSource = s.dmaSource := by simp [State.unitFill]
@[simp] theorem State.unitFill_fillArmed : (s.unitFill).fillArmed = s.fillArmed := by simp [State.unitFill]
@[simp] theorem State.unitFill_fillByte : (s.unitFill).fillByte = s.fillByte := by simp [State.unitFill]
@[simp] theorem State.unitFill_dmaEndCycles : (s.unitFill).dmaEndCycles = s.dmaEndCycles := by simp [State.unitFill]
@[simp] theorem State.unitFill_deferredCtrl : (s.unitFill).deferredCtrl = s.deferredCtrl := by simp [State.unitFill]
@[simp] theorem State.unitFill_hvLatch : (s.unitFill).hvLatch = s.hvLatch := by simp [State.unitFill]
@[simp] theorem State.unitFill_lastT : (s.unitFill).lastT = s.lastT := by simp [State.unitFill]
@[simp] theorem State.unitFill_cram : (s.unitFill).cram = s.cram := by simp [State.unitFill]
@[simp] theorem State.unitFill_vsram : (s.unitFill).vsram = s.vsram := by simp [State.unitFill]
@[simp] theorem State.unitFill_renderMode : (s.unitFill).renderMode = s.renderMode := by simp [State.unitFill]
@[simp] theorem State.unitFill_displayLines : (s.unitFill).displayLines = s.displayLines := by simp [State.unitFill]
@[simp] theorem State.unitFill_backdropColor : (s.unitFill).backdropColor = s.backdropColor := by simp [State.unitFill]
@[simp] theorem State.unitFill_faulted : (s.unitFill).faulted = s.faulted := by simp [State.unitFill]
@[simp] theorem State.unitFill_refused : (s.unitFill).refused = s.refused := by simp [State.unitFill]
@[simp] theorem State.unitFill_cpuStuck : (s.unitFill).cpuStuck = s.cpuStuck := by simp [State.unitFill]
@[simp] theorem State.unitFill_inbox : (s.unitFill).inbox = s.inbox := by simp [State.unitFill]
@[simp] theorem State.unitFill_draws : (s.unitFill).draws = s.draws := by simp [State.unitFill]
@[simp] theorem State.unitFill_out : (s.unitFill).out = s.out := by simp [State.unitFill]
@[simp] theorem State.unitFill_rd (j : BitVec 5) : (s.unitFill).rd j = s.rd j := by
  simp [State.rd]
@[simp] theorem State.unitFill_m5 : (s.unitFill).m5 = s.m5 := by simp [State.m5]
@[simp] theorem State.unitFill_h40 : (s.unitFill).h40 = s.h40 := by simp [State.h40, State.m5]
@[simp] theorem State.unitFill_inc : (s.unitFill).inc = s.inc := by
  unfold State.inc; simp only [State.unitFill_m5, State.unitFill_rd]
@[simp] theorem State.unitFill_dispEn : (s.unitFill).dispEn = s.dispEn := by simp [State.dispEn]
@[simp] theorem State.unitFill_backdropIdx : (s.unitFill).backdropIdx = s.backdropIdx := by
  unfold State.backdropIdx; simp only [State.unitFill_m5, State.unitFill_rd]
@[simp] theorem State.unitFill_satRange : (s.unitFill).satRange = s.satRange := State.satRange_congr (by simp) (by simp)
@[simp] theorem State.unitFill_logIdx (x : Word) : (s.unitFill).logIdx x = s.logIdx x := by
  unfold State.logIdx; rw [State.unitFill_cfg]
@[simp] theorem State.unitFill_inSat (x : Word) : (s.unitFill).inSat x = s.inSat x := by
  simp [State.inSat]
@[simp] theorem State.unitFill_satIdx (x : Word) : (s.unitFill).satIdx x = s.satIdx x := by
  simp [State.satIdx]
@[simp] theorem State.unitFill_target : (s.unitFill).target = s.target := by simp [State.target]

/-! ### unitCopy -/

@[simp] theorem State.unitCopy_cfg : (s.unitCopy).cfg = s.cfg := by simp [State.unitCopy]
@[simp] theorem State.unitCopy_reg : (s.unitCopy).reg = s.reg := by simp [State.unitCopy]
@[simp] theorem State.unitCopy_code : (s.unitCopy).code = s.code := by simp [State.unitCopy]
@[simp] theorem State.unitCopy_pending : (s.unitCopy).pending = s.pending := by simp [State.unitCopy]
@[simp] theorem State.unitCopy_ctrlLatch : (s.unitCopy).ctrlLatch = s.ctrlLatch := by simp [State.unitCopy]
@[simp] theorem State.unitCopy_readBuf : (s.unitCopy).readBuf = s.readBuf := by simp [State.unitCopy]
@[simp] theorem State.unitCopy_ggLatch : (s.unitCopy).ggLatch = s.ggLatch := by simp [State.unitCopy]
@[simp] theorem State.unitCopy_status : (s.unitCopy).status = s.status := by simp [State.unitCopy]
@[simp] theorem State.unitCopy_fifoCount : (s.unitCopy).fifoCount = s.fifoCount := by simp [State.unitCopy]
@[simp] theorem State.unitCopy_fifoLastWrite : (s.unitCopy).fifoLastWrite = s.fifoLastWrite := by simp [State.unitCopy]
@[simp] theorem State.unitCopy_fifoLatency : (s.unitCopy).fifoLatency = s.fifoLatency := by simp [State.unitCopy]
@[simp] theorem State.unitCopy_dmaType : (s.unitCopy).dmaType = s.dmaType := by simp [State.unitCopy]
@[simp] theorem State.unitCopy_dmaRemaining : (s.unitCopy).dmaRemaining = s.dmaRemaining := by simp [State.unitCopy]
@[simp] theorem State.unitCopy_fillArmed : (s.unitCopy).fillArmed = s.fillArmed := by simp [State.unitCopy]
@[simp] theorem State.unitCopy_fillByte : (s.unitCopy).fillByte = s.fillByte := by simp [State.unitCopy]
@[simp] theorem State.unitCopy_dmaEndCycles : (s.unitCopy).dmaEndCycles = s.dmaEndCycles := by simp [State.unitCopy]
@[simp] theorem State.unitCopy_deferredCtrl : (s.unitCopy).deferredCtrl = s.deferredCtrl := by simp [State.unitCopy]
@[simp] theorem State.unitCopy_hvLatch : (s.unitCopy).hvLatch = s.hvLatch := by simp [State.unitCopy]
@[simp] theorem State.unitCopy_lastT : (s.unitCopy).lastT = s.lastT := by simp [State.unitCopy]
@[simp] theorem State.unitCopy_cram : (s.unitCopy).cram = s.cram := by simp [State.unitCopy]
@[simp] theorem State.unitCopy_vsram : (s.unitCopy).vsram = s.vsram := by simp [State.unitCopy]
@[simp] theorem State.unitCopy_renderMode : (s.unitCopy).renderMode = s.renderMode := by simp [State.unitCopy]
@[simp] theorem State.unitCopy_displayLines : (s.unitCopy).displayLines = s.displayLines := by simp [State.unitCopy]
@[simp] theorem State.unitCopy_backdropColor : (s.unitCopy).backdropColor = s.backdropColor := by simp [State.unitCopy]
@[simp] theorem State.unitCopy_faulted : (s.unitCopy).faulted = s.faulted := by simp [State.unitCopy]
@[simp] theorem State.unitCopy_refused : (s.unitCopy).refused = s.refused := by simp [State.unitCopy]
@[simp] theorem State.unitCopy_cpuStuck : (s.unitCopy).cpuStuck = s.cpuStuck := by simp [State.unitCopy]
@[simp] theorem State.unitCopy_inbox : (s.unitCopy).inbox = s.inbox := by simp [State.unitCopy]
@[simp] theorem State.unitCopy_draws : (s.unitCopy).draws = s.draws := by simp [State.unitCopy]
@[simp] theorem State.unitCopy_out : (s.unitCopy).out = s.out := by simp [State.unitCopy]
@[simp] theorem State.unitCopy_rd (j : BitVec 5) : (s.unitCopy).rd j = s.rd j := by
  simp [State.rd]
@[simp] theorem State.unitCopy_m5 : (s.unitCopy).m5 = s.m5 := by simp [State.m5]
@[simp] theorem State.unitCopy_h40 : (s.unitCopy).h40 = s.h40 := by simp [State.h40, State.m5]
@[simp] theorem State.unitCopy_inc : (s.unitCopy).inc = s.inc := by
  unfold State.inc; simp only [State.unitCopy_m5, State.unitCopy_rd]
@[simp] theorem State.unitCopy_dispEn : (s.unitCopy).dispEn = s.dispEn := by simp [State.dispEn]
@[simp] theorem State.unitCopy_backdropIdx : (s.unitCopy).backdropIdx = s.backdropIdx := by
  unfold State.backdropIdx; simp only [State.unitCopy_m5, State.unitCopy_rd]
@[simp] theorem State.unitCopy_satRange : (s.unitCopy).satRange = s.satRange := State.satRange_congr (by simp) (by simp)
@[simp] theorem State.unitCopy_logIdx (x : Word) : (s.unitCopy).logIdx x = s.logIdx x := by
  unfold State.logIdx; rw [State.unitCopy_cfg]
@[simp] theorem State.unitCopy_inSat (x : Word) : (s.unitCopy).inSat x = s.inSat x := by
  simp [State.inSat]
@[simp] theorem State.unitCopy_satIdx (x : Word) : (s.unitCopy).satIdx x = s.satIdx x := by
  simp [State.satIdx]
@[simp] theorem State.unitCopy_target : (s.unitCopy).target = s.target := by simp [State.target]

/-! ### dmaUnit -/

@[simp] theorem State.dmaUnit_cfg : (s.dmaUnit).cfg = s.cfg := by unfold State.dmaUnit; split <;> simp
@[simp] theorem State.dmaUnit_reg : (s.dmaUnit).reg = s.reg := by unfold State.dmaUnit; split <;> simp
@[simp] theorem State.dmaUnit_code : (s.dmaUnit).code = s.code := by unfold State.dmaUnit; split <;> simp
@[simp] theorem State.dmaUnit_pending : (s.dmaUnit).pending = s.pending := by unfold State.dmaUnit; split <;> simp
@[simp] theorem State.dmaUnit_ctrlLatch : (s.dmaUnit).ctrlLatch = s.ctrlLatch := by unfold State.dmaUnit; split <;> simp
@[simp] theorem State.dmaUnit_readBuf : (s.dmaUnit).readBuf = s.readBuf := by unfold State.dmaUnit; split <;> simp
@[simp] theorem State.dmaUnit_ggLatch : (s.dmaUnit).ggLatch = s.ggLatch := by unfold State.dmaUnit; split <;> simp
@[simp] theorem State.dmaUnit_status : (s.dmaUnit).status = s.status := by unfold State.dmaUnit; split <;> simp
@[simp] theorem State.dmaUnit_fifoCount : (s.dmaUnit).fifoCount = s.fifoCount := by unfold State.dmaUnit; split <;> simp
@[simp] theorem State.dmaUnit_fifoLastWrite : (s.dmaUnit).fifoLastWrite = s.fifoLastWrite := by unfold State.dmaUnit; split <;> simp
@[simp] theorem State.dmaUnit_fifoLatency : (s.dmaUnit).fifoLatency = s.fifoLatency := by unfold State.dmaUnit; split <;> simp
@[simp] theorem State.dmaUnit_dmaType : (s.dmaUnit).dmaType = s.dmaType := by unfold State.dmaUnit; split <;> simp
@[simp] theorem State.dmaUnit_dmaRemaining : (s.dmaUnit).dmaRemaining = s.dmaRemaining := by unfold State.dmaUnit; split <;> simp
@[simp] theorem State.dmaUnit_fillArmed : (s.dmaUnit).fillArmed = s.fillArmed := by unfold State.dmaUnit; split <;> simp
@[simp] theorem State.dmaUnit_fillByte : (s.dmaUnit).fillByte = s.fillByte := by unfold State.dmaUnit; split <;> simp
@[simp] theorem State.dmaUnit_dmaEndCycles : (s.dmaUnit).dmaEndCycles = s.dmaEndCycles := by unfold State.dmaUnit; split <;> simp
@[simp] theorem State.dmaUnit_deferredCtrl : (s.dmaUnit).deferredCtrl = s.deferredCtrl := by unfold State.dmaUnit; split <;> simp
@[simp] theorem State.dmaUnit_hvLatch : (s.dmaUnit).hvLatch = s.hvLatch := by unfold State.dmaUnit; split <;> simp
@[simp] theorem State.dmaUnit_lastT : (s.dmaUnit).lastT = s.lastT := by unfold State.dmaUnit; split <;> simp
@[simp] theorem State.dmaUnit_renderMode : (s.dmaUnit).renderMode = s.renderMode := by unfold State.dmaUnit; split <;> simp
@[simp] theorem State.dmaUnit_displayLines : (s.dmaUnit).displayLines = s.displayLines := by unfold State.dmaUnit; split <;> simp
@[simp] theorem State.dmaUnit_faulted : (s.dmaUnit).faulted = s.faulted := by unfold State.dmaUnit; split <;> simp
@[simp] theorem State.dmaUnit_refused : (s.dmaUnit).refused = s.refused := by unfold State.dmaUnit; split <;> simp
@[simp] theorem State.dmaUnit_cpuStuck : (s.dmaUnit).cpuStuck = s.cpuStuck := by unfold State.dmaUnit; split <;> simp
@[simp] theorem State.dmaUnit_inbox : (s.dmaUnit).inbox = s.inbox := by unfold State.dmaUnit; split <;> simp
@[simp] theorem State.dmaUnit_out : (s.dmaUnit).out = s.out := by unfold State.dmaUnit; split <;> simp
@[simp] theorem State.dmaUnit_rd (j : BitVec 5) : (s.dmaUnit).rd j = s.rd j := by
  simp [State.rd]
@[simp] theorem State.dmaUnit_m5 : (s.dmaUnit).m5 = s.m5 := by simp [State.m5]
@[simp] theorem State.dmaUnit_h40 : (s.dmaUnit).h40 = s.h40 := by simp [State.h40, State.m5]
@[simp] theorem State.dmaUnit_inc : (s.dmaUnit).inc = s.inc := by
  unfold State.inc; simp only [State.dmaUnit_m5, State.dmaUnit_rd]
@[simp] theorem State.dmaUnit_dispEn : (s.dmaUnit).dispEn = s.dispEn := by simp [State.dispEn]
@[simp] theorem State.dmaUnit_backdropIdx : (s.dmaUnit).backdropIdx = s.backdropIdx := by
  unfold State.backdropIdx; simp only [State.dmaUnit_m5, State.dmaUnit_rd]
@[simp] theorem State.dmaUnit_satRange : (s.dmaUnit).satRange = s.satRange := State.satRange_congr (by simp) (by simp)
@[simp] theorem State.dmaUnit_logIdx (x : Word) : (s.dmaUnit).logIdx x = s.logIdx x := by
  unfold State.logIdx; rw [State.dmaUnit_cfg]
@[simp] theorem State.dmaUnit_inSat (x : Word) : (s.dmaUnit).inSat x = s.inSat x := by
  simp [State.inSat]
@[simp] theorem State.dmaUnit_satIdx (x : Word) : (s.dmaUnit).satIdx x = s.satIdx x := by
  simp [State.satIdx]
@[simp] theorem State.dmaUnit_target : (s.dmaUnit).target = s.target := by simp [State.target]

/-! ### dmaUnits -/

@[simp] theorem State.dmaUnits_cfg (n : Nat) : (s.dmaUnits n).cfg = s.cfg := by
  induction n generalizing s with
  | zero => rfl
  | succ n ih => simp [State.dmaUnits, ih]
@[simp] theorem State.dmaUnits_reg (n : Nat) : (s.dmaUnits n).reg = s.reg := by
  induction n generalizing s with
  | zero => rfl
  | succ n ih => simp [State.dmaUnits, ih]
@[simp] theorem State.dmaUnits_code (n : Nat) : (s.dmaUnits n).code = s.code := by
  induction n generalizing s with
  | zero => rfl
  | succ n ih => simp [State.dmaUnits, ih]
@[simp] theorem State.dmaUnits_pending (n : Nat) : (s.dmaUnits n).pending = s.pending := by
  induction n generalizing s with
  | zero => rfl
  | succ n ih => simp [State.dmaUnits, ih]
@[simp] theorem State.dmaUnits_ctrlLatch (n : Nat) : (s.dmaUnits n).ctrlLatch = s.ctrlLatch := by
  induction n generalizing s with
  | zero => rfl
  | succ n ih => simp [State.dmaUnits, ih]
@[simp] theorem State.dmaUnits_readBuf (n : Nat) : (s.dmaUnits n).readBuf = s.readBuf := by
  induction n generalizing s with
  | zero => rfl
  | succ n ih => simp [State.dmaUnits, ih]
@[simp] theorem State.dmaUnits_ggLatch (n : Nat) : (s.dmaUnits n).ggLatch = s.ggLatch := by
  induction n generalizing s with
  | zero => rfl
  | succ n ih => simp [State.dmaUnits, ih]
@[simp] theorem State.dmaUnits_status (n : Nat) : (s.dmaUnits n).status = s.status := by
  induction n generalizing s with
  | zero => rfl
  | succ n ih => simp [State.dmaUnits, ih]
@[simp] theorem State.dmaUnits_fifoCount (n : Nat) : (s.dmaUnits n).fifoCount = s.fifoCount := by
  induction n generalizing s with
  | zero => rfl
  | succ n ih => simp [State.dmaUnits, ih]
@[simp] theorem State.dmaUnits_fifoLastWrite (n : Nat) : (s.dmaUnits n).fifoLastWrite = s.fifoLastWrite := by
  induction n generalizing s with
  | zero => rfl
  | succ n ih => simp [State.dmaUnits, ih]
@[simp] theorem State.dmaUnits_fifoLatency (n : Nat) : (s.dmaUnits n).fifoLatency = s.fifoLatency := by
  induction n generalizing s with
  | zero => rfl
  | succ n ih => simp [State.dmaUnits, ih]
@[simp] theorem State.dmaUnits_dmaType (n : Nat) : (s.dmaUnits n).dmaType = s.dmaType := by
  induction n generalizing s with
  | zero => rfl
  | succ n ih => simp [State.dmaUnits, ih]
@[simp] theorem State.dmaUnits_dmaRemaining (n : Nat) : (s.dmaUnits n).dmaRemaining = s.dmaRemaining := by
  induction n generalizing s with
  | zero => rfl
  | succ n ih => simp [State.dmaUnits, ih]
@[simp] theorem State.dmaUnits_fillArmed (n : Nat) : (s.dmaUnits n).fillArmed = s.fillArmed := by
  induction n generalizing s with
  | zero => rfl
  | succ n ih => simp [State.dmaUnits, ih]
@[simp] theorem State.dmaUnits_fillByte (n : Nat) : (s.dmaUnits n).fillByte = s.fillByte := by
  induction n generalizing s with
  | zero => rfl
  | succ n ih => simp [State.dmaUnits, ih]
@[simp] theorem State.dmaUnits_dmaEndCycles (n : Nat) : (s.dmaUnits n).dmaEndCycles = s.dmaEndCycles := by
  induction n generalizing s with
  | zero => rfl
  | succ n ih => simp [State.dmaUnits, ih]
@[simp] theorem State.dmaUnits_deferredCtrl (n : Nat) : (s.dmaUnits n).deferredCtrl = s.deferredCtrl := by
  induction n generalizing s with
  | zero => rfl
  | succ n ih => simp [State.dmaUnits, ih]
@[simp] theorem State.dmaUnits_hvLatch (n : Nat) : (s.dmaUnits n).hvLatch = s.hvLatch := by
  induction n generalizing s with
  | zero => rfl
  | succ n ih => simp [State.dmaUnits, ih]
@[simp] theorem State.dmaUnits_lastT (n : Nat) : (s.dmaUnits n).lastT = s.lastT := by
  induction n generalizing s with
  | zero => rfl
  | succ n ih => simp [State.dmaUnits, ih]
@[simp] theorem State.dmaUnits_renderMode (n : Nat) : (s.dmaUnits n).renderMode = s.renderMode := by
  induction n generalizing s with
  | zero => rfl
  | succ n ih => simp [State.dmaUnits, ih]
@[simp] theorem State.dmaUnits_displayLines (n : Nat) : (s.dmaUnits n).displayLines = s.displayLines := by
  induction n generalizing s with
  | zero => rfl
  | succ n ih => simp [State.dmaUnits, ih]
@[simp] theorem State.dmaUnits_faulted (n : Nat) : (s.dmaUnits n).faulted = s.faulted := by
  induction n generalizing s with
  | zero => rfl
  | succ n ih => simp [State.dmaUnits, ih]
@[simp] theorem State.dmaUnits_refused (n : Nat) : (s.dmaUnits n).refused = s.refused := by
  induction n generalizing s with
  | zero => rfl
  | succ n ih => simp [State.dmaUnits, ih]
@[simp] theorem State.dmaUnits_cpuStuck (n : Nat) : (s.dmaUnits n).cpuStuck = s.cpuStuck := by
  induction n generalizing s with
  | zero => rfl
  | succ n ih => simp [State.dmaUnits, ih]
@[simp] theorem State.dmaUnits_inbox (n : Nat) : (s.dmaUnits n).inbox = s.inbox := by
  induction n generalizing s with
  | zero => rfl
  | succ n ih => simp [State.dmaUnits, ih]
@[simp] theorem State.dmaUnits_out (n : Nat) : (s.dmaUnits n).out = s.out := by
  induction n generalizing s with
  | zero => rfl
  | succ n ih => simp [State.dmaUnits, ih]
@[simp] theorem State.dmaUnits_rd (n : Nat) (j : BitVec 5) : (s.dmaUnits n).rd j = s.rd j := by
  simp [State.rd]
@[simp] theorem State.dmaUnits_m5 (n : Nat) : (s.dmaUnits n).m5 = s.m5 := by simp [State.m5]
@[simp] theorem State.dmaUnits_h40 (n : Nat) : (s.dmaUnits n).h40 = s.h40 := by simp [State.h40, State.m5]
@[simp] theorem State.dmaUnits_inc (n : Nat) : (s.dmaUnits n).inc = s.inc := by
  unfold State.inc; simp only [State.dmaUnits_m5, State.dmaUnits_rd]
@[simp] theorem State.dmaUnits_dispEn (n : Nat) : (s.dmaUnits n).dispEn = s.dispEn := by simp [State.dispEn]
@[simp] theorem State.dmaUnits_backdropIdx (n : Nat) : (s.dmaUnits n).backdropIdx = s.backdropIdx := by
  unfold State.backdropIdx; simp only [State.dmaUnits_m5, State.dmaUnits_rd]
@[simp] theorem State.dmaUnits_satRange (n : Nat) : (s.dmaUnits n).satRange = s.satRange := State.satRange_congr (by simp) (by simp)
@[simp] theorem State.dmaUnits_logIdx (n : Nat) (x : Word) : (s.dmaUnits n).logIdx x = s.logIdx x := by
  unfold State.logIdx; rw [State.dmaUnits_cfg]
@[simp] theorem State.dmaUnits_inSat (n : Nat) (x : Word) : (s.dmaUnits n).inSat x = s.inSat x := by
  simp [State.inSat]
@[simp] theorem State.dmaUnits_satIdx (n : Nat) (x : Word) : (s.dmaUnits n).satIdx x = s.satIdx x := by
  simp [State.satIdx]
@[simp] theorem State.dmaUnits_target (n : Nat) : (s.dmaUnits n).target = s.target := by simp [State.target]

/-! ### stepBusy -/

@[simp] theorem State.stepBusy_cfg (t : Nat) : (s.stepBusy t).cfg = s.cfg := by unfold State.stepBusy; split <;> rfl
@[simp] theorem State.stepBusy_reg (t : Nat) : (s.stepBusy t).reg = s.reg := by unfold State.stepBusy; split <;> rfl
@[simp] theorem State.stepBusy_addr (t : Nat) : (s.stepBusy t).addr = s.addr := by unfold State.stepBusy; split <;> rfl
@[simp] theorem State.stepBusy_code (t : Nat) : (s.stepBusy t).code = s.code := by unfold State.stepBusy; split <;> rfl
@[simp] theorem State.stepBusy_pending (t : Nat) : (s.stepBusy t).pending = s.pending := by unfold State.stepBusy; split <;> rfl
@[simp] theorem State.stepBusy_ctrlLatch (t : Nat) : (s.stepBusy t).ctrlLatch = s.ctrlLatch := by unfold State.stepBusy; split <;> rfl
@[simp] theorem State.stepBusy_readBuf (t : Nat) : (s.stepBusy t).readBuf = s.readBuf := by unfold State.stepBusy; split <;> rfl
@[simp] theorem State.stepBusy_ggLatch (t : Nat) : (s.stepBusy t).ggLatch = s.ggLatch := by unfold State.stepBusy; split <;> rfl
@[simp] theorem State.stepBusy_fifoCount (t : Nat) : (s.stepBusy t).fifoCount = s.fifoCount := by unfold State.stepBusy; split <;> rfl
@[simp] theorem State.stepBusy_fifoLastWrite (t : Nat) : (s.stepBusy t).fifoLastWrite = s.fifoLastWrite := by unfold State.stepBusy; split <;> rfl
@[simp] theorem State.stepBusy_fifoLatency (t : Nat) : (s.stepBusy t).fifoLatency = s.fifoLatency := by unfold State.stepBusy; split <;> rfl
@[simp] theorem State.stepBusy_dmaType (t : Nat) : (s.stepBusy t).dmaType = s.dmaType := by unfold State.stepBusy; split <;> rfl
@[simp] theorem State.stepBusy_dmaRemaining (t : Nat) : (s.stepBusy t).dmaRemaining = s.dmaRemaining := by unfold State.stepBusy; split <;> rfl
@[simp] theorem State.stepBusy_dmaSource (t : Nat) : (s.stepBusy t).dmaSource = s.dmaSource := by unfold State.stepBusy; split <;> rfl
@[simp] theorem State.stepBusy_fillArmed (t : Nat) : (s.stepBusy t).fillArmed = s.fillArmed := by unfold State.stepBusy; split <;> rfl
@[simp] theorem State.stepBusy_fillByte (t : Nat) : (s.stepBusy t).fillByte = s.fillByte := by unfold State.stepBusy; split <;> rfl
@[simp] theorem State.stepBusy_deferredCtrl (t : Nat) : (s.stepBusy t).deferredCtrl = s.deferredCtrl := by unfold State.stepBusy; split <;> rfl
@[simp] theorem State.stepBusy_hvLatch (t : Nat) : (s.stepBusy t).hvLatch = s.hvLatch := by unfold State.stepBusy; split <;> rfl
@[simp] theorem State.stepBusy_lastT (t : Nat) : (s.stepBusy t).lastT = s.lastT := by unfold State.stepBusy; split <;> rfl
@[simp] theorem State.stepBusy_vram (t : Nat) : (s.stepBusy t).vram = s.vram := by unfold State.stepBusy; split <;> rfl
@[simp] theorem State.stepBusy_cram (t : Nat) : (s.stepBusy t).cram = s.cram := by unfold State.stepBusy; split <;> rfl
@[simp] theorem State.stepBusy_vsram (t : Nat) : (s.stepBusy t).vsram = s.vsram := by unfold State.stepBusy; split <;> rfl
@[simp] theorem State.stepBusy_sat (t : Nat) : (s.stepBusy t).sat = s.sat := by unfold State.stepBusy; split <;> rfl
@[simp] theorem State.stepBusy_dirty (t : Nat) : (s.stepBusy t).dirty = s.dirty := by unfold State.stepBusy; split <;> rfl
@[simp] theorem State.stepBusy_renderMode (t : Nat) : (s.stepBusy t).renderMode = s.renderMode := by unfold State.stepBusy; split <;> rfl
@[simp] theorem State.stepBusy_displayLines (t : Nat) : (s.stepBusy t).displayLines = s.displayLines := by unfold State.stepBusy; split <;> rfl
@[simp] theorem State.stepBusy_backdropColor (t : Nat) : (s.stepBusy t).backdropColor = s.backdropColor := by unfold State.stepBusy; split <;> rfl
@[simp] theorem State.stepBusy_faulted (t : Nat) : (s.stepBusy t).faulted = s.faulted := by unfold State.stepBusy; split <;> rfl
@[simp] theorem State.stepBusy_refused (t : Nat) : (s.stepBusy t).refused = s.refused := by unfold State.stepBusy; split <;> rfl
@[simp] theorem State.stepBusy_cpuStuck (t : Nat) : (s.stepBusy t).cpuStuck = s.cpuStuck := by unfold State.stepBusy; split <;> rfl
@[simp] theorem State.stepBusy_inbox (t : Nat) : (s.stepBusy t).inbox = s.inbox := by unfold State.stepBusy; split <;> rfl
@[simp] theorem State.stepBusy_draws (t : Nat) : (s.stepBusy t).draws = s.draws := by unfold State.stepBusy; split <;> rfl
@[simp] theorem State.stepBusy_out (t : Nat) : (s.stepBusy t).out = s.out := by unfold State.stepBusy; split <;> rfl
@[simp] theorem State.stepBusy_rd (t : Nat) (j : BitVec 5) : (s.stepBusy t).rd j = s.rd j := by
  simp [State.rd]
@[simp] theorem State.stepBusy_m5 (t : Nat) : (s.stepBusy t).m5 = s.m5 := by simp [State.m5]
@[simp] theorem State.stepBusy_h40 (t : Nat) : (s.stepBusy t).h40 = s.h40 := by simp [State.h40, State.m5]
@[simp] theorem State.stepBusy_inc (t : Nat) : (s.stepBusy t).inc = s.inc := by
  unfold State.inc; simp only [State.stepBusy_m5, State.stepBusy_rd]
@[simp] theorem State.stepBusy_dispEn (t : Nat) : (s.stepBusy t).dispEn = s.dispEn := by simp [State.dispEn]
@[simp] theorem State.stepBusy_backdropIdx (t : Nat) : (s.stepBusy t).backdropIdx = s.backdropIdx := by
  unfold State.backdropIdx; simp only [State.stepBusy_m5, State.stepBusy_rd]
@[simp] theorem State.stepBusy_satRange (t : Nat) : (s.stepBusy t).satRange = s.satRange := State.satRange_congr (by simp) (by simp)
@[simp] theorem State.stepBusy_logIdx (t : Nat) (x : Word) : (s.stepBusy t).logIdx x = s.logIdx x := by
  unfold State.logIdx; rw [State.stepBusy_cfg]
@[simp] theorem State.stepBusy_inSat (t : Nat) (x : Word) : (s.stepBusy t).inSat x = s.inSat x := by
  simp [State.inSat]
@[simp] theorem State.stepBusy_satIdx (t : Nat) (x : Word) : (s.stepBusy t).satIdx x = s.satIdx x := by
  simp [State.satIdx]
@[simp] theorem State.stepBusy_target (t : Nat) : (s.stepBusy t).target = s.target := by simp [State.target]

/-! ### dmaTransfer -/

@[simp] theorem State.dmaTransfer_cfg (t : Nat) : (s.dmaTransfer t).cfg = s.cfg := by simp [State.dmaTransfer]
@[simp] theorem State.dmaTransfer_reg (t : Nat) : (s.dmaTransfer t).reg = s.reg := by simp [State.dmaTransfer]
@[simp] theorem State.dmaTransfer_code (t : Nat) : (s.dmaTransfer t).code = s.code := by simp [State.dmaTransfer]
@[simp] theorem State.dmaTransfer_pending (t : Nat) : (s.dmaTransfer t).pending = s.pending := by simp [State.dmaTransfer]
@[simp] theorem State.dmaTransfer_ctrlLatch (t : Nat) : (s.dmaTransfer t).ctrlLatch = s.ctrlLatch := by simp [State.dmaTransfer]
@[simp] theorem State.dmaTransfer_readBuf (t : Nat) : (s.dmaTransfer t).readBuf = s.readBuf := by simp [State.dmaTransfer]
@[simp] theorem State.dmaTransfer_ggLatch (t : Nat) : (s.dmaTransfer t).ggLatch = s.ggLatch := by simp [State.dmaTransfer]
@[simp] theorem State.dmaTransfer_fifoCount (t : Nat) : (s.dmaTransfer t).fifoCount = s.fifoCount := by simp [State.dmaTransfer]
@[simp] theorem State.dmaTransfer_fifoLastWrite (t : Nat) : (s.dmaTransfer t).fifoLastWrite = s.fifoLastWrite := by simp [State.dmaTransfer]
@[simp] theorem State.dmaTransfer_fifoLatency (t : Nat) : (s.dmaTransfer t).fifoLatency = s.fifoLatency := by simp [State.dmaTransfer]
@[simp] theorem State.dmaTransfer_dmaType (t : Nat) : (s.dmaTransfer t).dmaType = s.dmaType := by simp [State.dmaTransfer]
@[simp] theorem State.dmaTransfer_fillArmed (t : Nat) : (s.dmaTransfer t).fillArmed = s.fillArmed := by simp [State.dmaTransfer]
@[simp] theorem State.dmaTransfer_fillByte (t : Nat) : (s.dmaTransfer t).fillByte = s.fillByte := by simp [State.dmaTransfer]
@[simp] theorem State.dmaTransfer_deferredCtrl (t : Nat) : (s.dmaTransfer t).deferredCtrl = s.deferredCtrl := by simp [State.dmaTransfer]
@[simp] theorem State.dmaTransfer_hvLatch (t : Nat) : (s.dmaTransfer t).hvLatch = s.hvLatch := by simp [State.dmaTransfer]
@[simp] theorem State.dmaTransfer_lastT (t : Nat) : (s.dmaTransfer t).lastT = s.lastT := by simp [State.dmaTransfer]
@[simp] theorem State.dmaTransfer_renderMode (t : Nat) : (s.dmaTransfer t).renderMode = s.renderMode := by simp [State.dmaTransfer]
@[simp] theorem State.dmaTransfer_displayLines (t : Nat) : (s.dmaTransfer t).displayLines = s.displayLines := by simp [State.dmaTransfer]
@[simp] theorem State.dmaTransfer_faulted (t : Nat) : (s.dmaTransfer t).faulted = s.faulted := by simp [State.dmaTransfer]
@[simp] theorem State.dmaTransfer_refused (t : Nat) : (s.dmaTransfer t).refused = s.refused := by simp [State.dmaTransfer]
@[simp] theorem State.dmaTransfer_cpuStuck (t : Nat) : (s.dmaTransfer t).cpuStuck = s.cpuStuck := by simp [State.dmaTransfer]
@[simp] theorem State.dmaTransfer_inbox (t : Nat) : (s.dmaTransfer t).inbox = s.inbox := by simp [State.dmaTransfer]
@[simp] theorem State.dmaTransfer_out (t : Nat) : (s.dmaTransfer t).out = s.out := by simp [State.dmaTransfer]
@[simp] theorem State.dmaTransfer_rd (t : Nat) (j : BitVec 5) : (s.dmaTransfer t).rd j = s.rd j := by
  simp [State.rd]
@[simp] theorem State.dmaTransfer_m5 (t : Nat) : (s.dmaTransfer t).m5 = s.m5 := by simp [State.m5]
@[simp] theorem State.dmaTransfer_h40 (t : Nat) : (s.dmaTransfer t).h40 = s.h40 := by simp [State.h40, State.m5]
@[simp] theorem State.dmaTransfer_inc (t : Nat) : (s.dmaTransfer t).inc = s.inc := by
  unfold State.inc; simp only [State.dmaTransfer_m5, State.dmaTransfer_rd]
@[simp] theorem State.dmaTransfer_dispEn (t : Nat) : (s.dmaTransfer t).dispEn = s.dispEn := by simp [State.dispEn]
@[simp] theorem State.dmaTransfer_backdropIdx (t : Nat) : (s.dmaTransfer t).backdropIdx = s.backdropIdx := by
  unfold State.backdropIdx; simp only [State.dmaTransfer_m5, State.dmaTransfer_rd]
@[simp] theorem State.dmaTransfer_satRange (t : Nat) : (s.dmaTransfer t).satRange = s.satRange := State.satRange_congr (by simp) (by simp)
@[simp] theorem State.dmaTransfer_logIdx (t : Nat) (x : Word) : (s.dmaTransfer t).logIdx x = s.logIdx x := by
  unfold State.logIdx; rw [State.dmaTransfer_cfg]
@[simp] theorem State.dmaTransfer_inSat (t : Nat) (x : Word) : (s.dmaTransfer t).inSat x = s.inSat x := by
  simp [State.inSat]
@[simp] theorem State.dmaTransfer_satIdx (t : Nat) (x : Word) : (s.dmaTransfer t).satIdx x = s.satIdx x := by
  simp [State.satIdx]
@[simp] theorem State.dmaTransfer_target (t : Nat) : (s.dmaTransfer t).target = s.target := by simp [State.target]

/-! ### sourceWriteback -/

@[simp] theorem State.sourceWriteback_cfg : (s.sourceWriteback).cfg = s.cfg := by
  unfold State.sourceWriteback; split <;> rfl
@[simp] theorem State.sourceWriteback_addr : (s.sourceWriteback).addr = s.addr := by
  unfold State.sourceWriteback; split <;> rfl
@[simp] theorem State.sourceWriteback_code : (s.sourceWriteback).code = s.code := by
  unfold State.sourceWriteback; split <;> rfl
@[simp] theorem State.sourceWriteback_pending : (s.sourceWriteback).pending = s.pending := by
  unfold State.sourceWriteback; split <;> rfl
@[simp] theorem State.sourceWriteback_ctrlLatch : (s.sourceWriteback).ctrlLatch = s.ctrlLatch := by
  unfold State.sourceWriteback; split <;> rfl
@[simp] theorem State.sourceWriteback_readBuf : (s.sourceWriteback).readBuf = s.readBuf := by
  unfold State.sourceWriteback; split <;> rfl
@[simp] theorem State.sourceWriteback_ggLatch : (s.sourceWriteback).ggLatch = s.ggLatch := by
  unfold State.sourceWriteback; split <;> rfl
@[simp] theorem State.sourceWriteback_status : (s.sourceWriteback).status = s.status := by
  unfold State.sourceWriteback; split <;> rfl
@[simp] theorem State.sourceWriteback_fifoCount : (s.sourceWriteback).fifoCount = s.fifoCount := by
  unfold State.sourceWriteback; split <;> rfl
@[simp] theorem State.sourceWriteback_fifoLastWrite : (s.sourceWriteback).fifoLastWrite = s.fifoLastWrite := by
  unfold State.sourceWriteback; split <;> rfl
@[simp] theorem State.sourceWriteback_fifoLatency : (s.sourceWriteback).fifoLatency = s.fifoLatency := by
  unfold State.sourceWriteback; split <;> rfl
@[simp] theorem State.sourceWriteback_dmaType : (s.sourceWriteback).dmaType = s.dmaType := by
  unfold State.sourceWriteback; split <;> rfl
@[simp] theorem State.sourceWriteback_dmaRemaining : (s.sourceWriteback).dmaRemaining = s.dmaRemaining := by
  unfold State.sourceWriteback; split <;> rfl
@[simp] theorem State.sourceWriteback_dmaSource : (s.sourceWriteback).dmaSource = s.dmaSource := by
  unfold State.sourceWriteback; split <;> rfl
@[simp] theorem State.sourceWriteback_fillArmed : (s.sourceWriteback).fillArmed = s.fillArmed := by
  unfold State.sourceWriteback; split <;> rfl
@[simp] theorem State.sourceWriteback_fillByte : (s.sourceWriteback).fillByte = s.fillByte := by
  unfold State.sourceWriteback; split <;> rfl
@[simp] theorem State.sourceWriteback_dmaEndCycles : (s.sourceWriteback).dmaEndCycles = s.dmaEndCycles := by
  unfold State.sourceWriteback; split <;> rfl
@[simp] theorem State.sourceWriteback_deferredCtrl : (s.sourceWriteback).deferredCtrl = s.deferredCtrl := by
  unfold State.sourceWriteback; split <;> rfl
@[simp] theorem State.sourceWriteback_hvLatch : (s.sourceWriteback).hvLatch = s.hvLatch := by
  unfold State.sourceWriteback; split <;> rfl
@[simp] theorem State.sourceWriteback_lastT : (s.sourceWriteback).lastT = s.lastT := by
  unfold State.sourceWriteback; split <;> rfl
@[simp] theorem State.sourceWriteback_vram : (s.sourceWriteback).vram = s.vram := by
  unfold State.sourceWriteback; split <;> rfl
@[simp] theorem State.sourceWriteback_cram : (s.sourceWriteback).cram = s.cram := by
  unfold State.sourceWriteback; split <;> rfl
@[simp] theorem State.sourceWriteback_vsram : (s.sourceWriteback).vsram = s.vsram := by
  unfold State.sourceWriteback; split <;> rfl
@[simp] theorem State.sourceWriteback_sat : (s.sourceWriteback).sat = s.sat := by
  unfold State.sourceWriteback; split <;> rfl
@[simp] theorem State.sourceWriteback_dirty : (s.sourceWriteback).dirty = s.dirty := by
  unfold State.sourceWriteback; split <;> rfl
@[simp] theorem State.sourceWriteback_renderMode : (s.sourceWriteback).renderMode = s.renderMode := by
  unfold State.sourceWriteback; split <;> rfl
@[simp] theorem State.sourceWriteback_displayLines : (s.sourceWriteback).displayLines = s.displayLines := by
  unfold State.sourceWriteback; split <;> rfl
@[simp] theorem State.sourceWriteback_backdropColor : (s.sourceWriteback).backdropColor = s.backdropColor := by
  unfold State.sourceWriteback; split <;> rfl
@[simp] theorem State.sourceWriteback_faulted : (s.sourceWriteback).faulted = s.faulted := by
  unfold State.sourceWriteback; split <;> rfl
@[simp] theorem State.sourceWriteback_refused : (s.sourceWriteback).refused = s.refused := by
  unfold State.sourceWriteback; split <;> rfl
@[simp] theorem State.sourceWriteback_cpuStuck : (s.sourceWriteback).cpuStuck = s.cpuStuck := by
  unfold State.sourceWriteback; split <;> rfl
@[simp] theorem State.sourceWriteback_inbox : (s.sourceWriteback).inbox = s.inbox := by
  unfold State.sourceWriteback; split <;> rfl
@[simp] theorem State.sourceWriteback_draws : (s.sourceWriteback).draws = s.draws := by
  unfold State.sourceWriteback; split <;> rfl
@[simp] theorem State.sourceWriteback_out : (s.sourceWriteback).out = s.out := by
  unfold State.sourceWriteback; split <;> rfl
@[simp] theorem State.sourceWriteback_logIdx (x : Word) : (s.sourceWriteback).logIdx x = s.logIdx x := by
  unfold State.logIdx; rw [State.sourceWriteback_cfg]
@[simp] theorem State.sourceWriteback_target : (s.sourceWriteback).target = s.target := by simp [State.target]

/-! ### writebackIf -/

@[simp] theorem State.writebackIf_cfg : (s.writebackIf).cfg = s.cfg := by unfold State.writebackIf; split <;> simp
@[simp] theorem State.writebackIf_addr : (s.writebackIf).addr = s.addr := by unfold State.writebackIf; split <;> simp
@[simp] theorem State.writebackIf_code : (s.writebackIf).code = s.code := by unfold State.writebackIf; split <;> simp
@[simp] theorem State.writebackIf_pending : (s.writebackIf).pending = s.pending := by unfold State.writebackIf; split <;> simp
@[simp] theorem State.writebackIf_ctrlLatch : (s.writebackIf).ctrlLatch = s.ctrlLatch := by unfold State.writebackIf; split <;> simp
@[simp] theorem State.writebackIf_readBuf : (s.writebackIf).readBuf = s.readBuf := by unfold State.writebackIf; split <;> simp
@[simp] theorem State.writebackIf_ggLatch : (s.writebackIf).ggLatch = s.ggLatch := by unfold State.writebackIf; split <;> simp
@[simp] theorem State.writebackIf_status : (s.writebackIf).status = s.status := by unfold State.writebackIf; split <;> simp
@[simp] theorem State.writebackIf_fifoCount : (s.writebackIf).fifoCount = s.fifoCount := by unfold State.writebackIf; split <;> simp
@[simp] theorem State.writebackIf_fifoLastWrite : (s.writebackIf).fifoLastWrite = s.fifoLastWrite := by unfold State.writebackIf; split <;> simp
@[simp] theorem State.writebackIf_fifoLatency : (s.writebackIf).fifoLatency = s.fifoLatency := by unfold State.writebackIf; split <;> simp
@[simp] theorem State.writebackIf_dmaType : (s.writebackIf).dmaType = s.dmaType := by unfold State.writebackIf; split <;> simp
@[simp] theorem State.writebackIf_dmaRemaining : (s.writebackIf).dmaRemaining = s.dmaRemaining := by unfold State.writebackIf; split <;> simp
@[simp] theorem State.writebackIf_dmaSource : (s.writebackIf).dmaSource = s.dmaSource := by unfold State.writebackIf; split <;> simp
@[simp] theorem State.writebackIf_fillArmed : (s.writebackIf).fillArmed = s.fillArmed := by unfold State.writebackIf; split <;> simp
@[simp] theorem State.writebackIf_fillByte : (s.writebackIf).fillByte = s.fillByte := by unfold State.writebackIf; split <;> simp
@[simp] theorem State.writebackIf_dmaEndCycles : (s.writebackIf).dmaEndCycles = s.dmaEndCycles := by unfold State.writebackIf; split <;> simp
@[simp] theorem State.writebackIf_deferredCtrl : (s.writebackIf).deferredCtrl = s.deferredCtrl := by unfold State.writebackIf; split <;> simp
@[simp] theorem State.writebackIf_hvLatch : (s.writebackIf).hvLatch = s.hvLatch := by unfold State.writebackIf; split <;> simp
@[simp] theorem State.writebackIf_lastT : (s.writebackIf).lastT = s.lastT := by unfold State.writebackIf; split <;> simp
@[simp] theorem State.writebackIf_vram : (s.writebackIf).vram = s.vram := by unfold State.writebackIf; split <;> simp
@[simp] theorem State.writebackIf_cram : (s.writebackIf).cram = s.cram := by unfold State.writebackIf; split <;> simp
@[simp] theorem State.writebackIf_vsram : (s.writebackIf).vsram = s.vsram := by unfold State.writebackIf; split <;> simp
@[simp] theorem State.writebackIf_sat : (s.writebackIf).sat = s.sat := by unfold State.writebackIf; split <;> simp
@[simp] theorem State.writebackIf_dirty : (s.writebackIf).dirty = s.dirty := by unfold State.writebackIf; split <;> simp
@[simp] theorem State.writebackIf_renderMode : (s.writebackIf).renderMode = s.renderMode := by unfold State.writebackIf; split <;> simp
@[simp] theorem State.writebackIf_displayLines : (s.writebackIf).displayLines = s.displayLines := by unfold State.writebackIf; split <;> simp
@[simp] theorem State.writebackIf_backdropColor : (s.writebackIf).backdropColor = s.backdropColor := by unfold State.writebackIf; split <;> simp
@[simp] theorem State.writebackIf_faulted : (s.writebackIf).faulted = s.faulted := by unfold State.writebackIf; split <;> simp
@[simp] theorem State.writebackIf_refused : (s.writebackIf).refused = s.refused := by unfold State.writebackIf; split <;> simp
@[simp] theorem State.writebackIf_cpuStuck : (s.writebackIf).cpuStuck = s.cpuStuck := by unfold State.writebackIf; split <;> simp
@[simp] theorem State.writebackIf_inbox : (s.writebackIf).inbox = s.inbox := by unfold State.writebackIf; split <;> simp
@[simp] theorem State.writebackIf_draws : (s.writebackIf).draws = s.draws := by unfold State.writebackIf; split <;> simp
@[simp] theorem State.writebackIf_out : (s.writebackIf).out = s.out := by unfold State.writebackIf; split <;> simp
@[simp] theorem State.writebackIf_logIdx (x : Word) : (s.writebackIf).logIdx x = s.logIdx x := by
  unfold State.logIdx; rw [State.writebackIf_cfg]
@[simp] theorem State.writebackIf_target : (s.writebackIf).target = s.target := by simp [State.target]

/-! ### dmaFinish -/

@[simp] theorem State.dmaFinish_cfg : (s.dmaFinish).cfg = s.cfg := by simp [State.dmaFinish]
@[simp] theorem State.dmaFinish_addr : (s.dmaFinish).addr = s.addr := by simp [State.dmaFinish]
@[simp] theorem State.dmaFinish_code : (s.dmaFinish).code = s.code := by simp [State.dmaFinish]
@[simp] theorem State.dmaFinish_pending : (s.dmaFinish).pending = s.pending := by simp [State.dmaFinish]
@[simp] theorem State.dmaFinish_ctrlLatch : (s.dmaFinish).ctrlLatch = s.ctrlLatch := by simp [State.dmaFinish]
@[simp] theorem State.dmaFinish_readBuf : (s.dmaFinish).readBuf = s.readBuf := by simp [State.dmaFinish]
@[simp] theorem State.dmaFinish_ggLatch : (s.dmaFinish).ggLatch = s.ggLatch := by simp [State.dmaFinish]
@[simp] theorem State.dmaFinish_status : (s.dmaFinish).status = s.status := by simp [State.dmaFinish]
@[simp] theorem State.dmaFinish_fifoCount : (s.dmaFinish).fifoCount = s.fifoCount := by simp [State.dmaFinish]
@[simp] theorem State.dmaFinish_fifoLastWrite : (s.dmaFinish).fifoLastWrite = s.fifoLastWrite := by simp [State.dmaFinish]
@[simp] theorem State.dmaFinish_fifoLatency : (s.dmaFinish).fifoLatency = s.fifoLatency := by simp [State.dmaFinish]
@[simp] theorem State.dmaFinish_dmaRemaining : (s.dmaFinish).dmaRemaining = s.dmaRemaining := by simp [State.dmaFinish]
@[simp] theorem State.dmaFinish_dmaSource : (s.dmaFinish).dmaSource = s.dmaSource := by simp [State.dmaFinish]
@[simp] theorem State.dmaFinish_fillByte : (s.dmaFinish).fillByte = s.fillByte := by simp [State.dmaFinish]
@[simp] theorem State.dmaFinish_dmaEndCycles : (s.dmaFinish).dmaEndCycles = s.dmaEndCycles := by simp [State.dmaFinish]
@[simp] theorem State.dmaFinish_deferredCtrl : (s.dmaFinish).deferredCtrl = s.deferredCtrl := by simp [State.dmaFinish]
@[simp] theorem State.dmaFinish_hvLatch : (s.dmaFinish).hvLatch = s.hvLatch := by simp [State.dmaFinish]
@[simp] theorem State.dmaFinish_lastT : (s.dmaFinish).lastT = s.lastT := by simp [State.dmaFinish]
@[simp] theorem State.dmaFinish_vram : (s.dmaFinish).vram = s.vram := by simp [State.dmaFinish]
@[simp] theorem State.dmaFinish_cram : (s.dmaFinish).cram = s.cram := by simp [State.dmaFinish]
@[simp] theorem State.dmaFinish_vsram : (s.dmaFinish).vsram = s.vsram := by simp [State.dmaFinish]
@[simp] theorem State.dmaFinish_sat : (s.dmaFinish).sat = s.sat := by simp [State.dmaFinish]
@[simp] theorem State.dmaFinish_dirty : (s.dmaFinish).dirty = s.dirty := by simp [State.dmaFinish]
@[simp] theorem State.dmaFinish_renderMode : (s.dmaFinish).renderMode = s.renderMode := by simp [State.dmaFinish]
@[simp] theorem State.dmaFinish_displayLines : (s.dmaFinish).displayLines = s.displayLines := by simp [State.dmaFinish]
@[simp] theorem State.dmaFinish_backdropColor : (s.dmaFinish).backdropColor = s.backdropColor := by simp [State.dmaFinish]
@[simp] theorem State.dmaFinish_faulted : (s.dmaFinish).faulted = s.faulted := by simp [State.dmaFinish]
@[simp] theorem State.dmaFinish_refused : (s.dmaFinish).refused = s.refused := by simp [State.dmaFinish]
@[simp] theorem State.dmaFinish_cpuStuck : (s.dmaFinish).cpuStuck = s.cpuStuck := by simp [State.dmaFinish]
@[simp] theorem State.dmaFinish_inbox : (s.dmaFinish).inbox = s.inbox := by simp [State.dmaFinish]
@[simp] theorem State.dmaFinish_draws : (s.dmaFinish).draws = s.draws := by simp [State.dmaFinish]
@[simp] theorem State.dmaFinish_out : (s.dmaFinish).out = s.out := by simp [State.dmaFinish]
@[simp] theorem State.dmaFinish_logIdx (x : Word) : (s.dmaFinish).logIdx x = s.logIdx x := by
  unfold State.logIdx; rw [State.dmaFinish_cfg]
@[simp] theorem State.dmaFinish_target : (s.dmaFinish).target = s.target := by simp [State.target]

/-! ### dmaRequest -/

@[simp] theorem State.dmaRequest_cfg : (s.dmaRequest).cfg = s.cfg := by unfold State.dmaRequest; split <;> rfl
@[simp] theorem State.dmaRequest_reg : (s.dmaRequest).reg = s.reg := by unfold State.dmaRequest; split <;> rfl
@[simp] theorem State.dmaRequest_addr : (s.dmaRequest).addr = s.addr := by unfold State.dmaRequest; split <;> rfl
@[simp] theorem State.dmaRequest_code : (s.dmaRequest).code = s.code := by unfold State.dmaRequest; split <;> rfl
@[simp] theorem State.dmaRequest_pending : (s.dmaRequest).pending = s.pending := by unfold State.dmaRequest; split <;> rfl
@[simp] theorem State.dmaRequest_ctrlLatch : (s.dmaRequest).ctrlLatch = s.ctrlLatch := by unfold State.dmaRequest; split <;> rfl
@[simp] theorem State.dmaRequest_readBuf : (s.dmaRequest).readBuf = s.readBuf := by unfold State.dmaRequest; split <;> rfl
@[simp] theorem State.dmaRequest_ggLatch : (s.dmaRequest).ggLatch = s.ggLatch := by unfold State.dmaRequest; split <;> rfl
@[simp] theorem State.dmaRequest_status : (s.dmaRequest).status = s.status := by unfold State.dmaRequest; split <;> rfl
@[simp] theorem State.dmaRequest_fifoCount : (s.dmaRequest).fifoCount = s.fifoCount := by unfold State.dmaRequest; split <;> rfl
@[simp] theorem State.dmaRequest_fifoLastWrite : (s.dmaRequest).fifoLastWrite = s.fifoLastWrite := by unfold State.dmaRequest; split <;> rfl
@[simp] theorem State.dmaRequest_fifoLatency : (s.dmaRequest).fifoLatency = s.fifoLatency := by unfold State.dmaRequest; split <;> rfl
@[simp] theorem State.dmaRequest_fillByte : (s.dmaRequest).fillByte = s.fillByte := by unfold State.dmaRequest; split <;> rfl
@[simp] theorem State.dmaRequest_dmaEndCycles : (s.dmaRequest).dmaEndCycles = s.dmaEndCycles := by unfold State.dmaRequest; split <;> rfl
@[simp] theorem State.dmaRequest_deferredCtrl : (s.dmaRequest).deferredCtrl = s.deferredCtrl := by unfold State.dmaRequest; split <;> rfl
@[simp] theorem State.dmaRequest_hvLatch : (s.dmaRequest).hvLatch = s.hvLatch := by unfold State.dmaRequest; split <;> rfl
@[simp] theorem State.dmaRequest_lastT : (s.dmaRequest).lastT = s.lastT := by unfold State.dmaRequest; split <;> rfl
@[simp] theorem State.dmaRequest_vram : (s.dmaRequest).vram = s.vram := by unfold State.dmaRequest; split <;> rfl
@[simp] theorem State.dmaRequest_cram : (s.dmaRequest).cram = s.cram := by unfold State.dmaRequest; split <;> rfl
@[simp] theorem State.dmaRequest_vsram : (s.dmaRequest).vsram = s.vsram := by unfold State.dmaRequest; split <;> rfl
@[simp] theorem State.dmaRequest_sat : (s.dmaRequest).sat = s.sat := by unfold State.dmaRequest; split <;> rfl
@[simp] theorem State.dmaRequest_dirty : (s.dmaRequest).dirty = s.dirty := by unfold State.dmaRequest; split <;> rfl
@[simp] theorem State.dmaRequest_renderMode : (s.dmaRequest).renderMode = s.renderMode := by unfold State.dmaRequest; split <;> rfl
@[simp] theorem State.dmaRequest_displayLines : (s.dmaRequest).displayLines = s.displayLines := by unfold State.dmaRequest; split <;> rfl
@[simp] theorem State.dmaRequest_backdropColor : (s.dmaRequest).backdropColor = s.backdropColor := by unfold State.dmaRequest; split <;> rfl
@[simp] theorem State.dmaRequest_faulted : (s.dmaRequest).faulted = s.faulted := by unfold State.dmaRequest; split <;> rfl
@[simp] theorem State.dmaRequest_refused : (s.dmaRequest).refused = s.refused := by unfold State.dmaRequest; split <;> rfl
@[simp] theorem State.dmaRequest_cpuStuck : (s.dmaRequest).cpuStuck = s.cpuStuck := by unfold State.dmaRequest; split <;> rfl
@[simp] theorem State.dmaRequest_inbox : (s.dmaRequest).inbox = s.inbox := by unfold State.dmaRequest; split <;> rfl
@[simp] theorem State.dmaRequest_draws : (s.dmaRequest).draws = s.draws := by unfold State.dmaRequest; split <;> rfl
@[simp] theorem State.dmaRequest_out : (s.dmaRequest).out = s.out := by unfold State.dmaRequest; split <;> rfl
@[simp] theorem State.dmaRequest_rd (j : BitVec 5) : (s.dmaRequest).rd j = s.rd j := by
  simp [State.rd]
@[simp] theorem State.dmaRequest_m5 : (s.dmaRequest).m5 = s.m5 := by simp [State.m5]
@[simp] theorem State.dmaRequest_h40 : (s.dmaRequest).h40 = s.h40 := by simp [State.h40, State.m5]
@[simp] theorem State.dmaRequest_inc : (s.dmaRequest).inc = s.inc := by
  unfold State.inc; simp only [State.dmaRequest_m5, State.dmaRequest_rd]
@[simp] theorem State.dmaRequest_dispEn : (s.dmaRequest).dispEn = s.dispEn := by simp [State.dispEn]
@[simp] theorem State.dmaRequest_backdropIdx : (s.dmaRequest).backdropIdx = s.backdropIdx := by
  unfold State.backdropIdx; simp only [State.dmaRequest_m5, State.dmaRequest_rd]
@[simp] theorem State.dmaRequest_satRange : (s.dmaRequest).satRange = s.satRange := State.satRange_congr (by simp) (by simp)
@[simp] theorem State.dmaRequest_logIdx (x : Word) : (s.dmaRequest).logIdx x = s.logIdx x := by
  unfold State.logIdx; rw [State.dmaRequest_cfg]
@[simp] theorem State.dmaRequest_inSat (x : Word) : (s.dmaRequest).inSat x = s.inSat x := by
  simp [State.inSat]
@[simp] theorem State.dmaRequest_satIdx (x : Word) : (s.dmaRequest).satIdx x = s.satIdx x := by
  simp [State.satIdx]
@[simp] theorem State.dmaRequest_target : (s.dmaRequest).target = s.target := by simp [State.target]

end Sys2Proof.Machine
end

