-- ==== Sys2Proof/Laws/Registers.lean ====
section
/-! SUPPORT. The register file: a read after a store, and that the register fields depend only on the
variant and the registers. -/

namespace Sys2Proof.Machine

/-- A register read after a store. -/
theorem State.rd_setReg (s : State) (i j : BitVec 5) (d : Byte) :
    (s.setReg i d).rd j = if j = i then d else s.rd j := by
  unfold State.rd State.setReg
  by_cases h : j = i
  · subst h; simp
  · have hn : i.toNat ≠ j.toNat := fun he => h (BitVec.eq_of_toNat_eq he.symm)
    simp only [h, if_false]
    exact Vector.getElem_set_ne _ _ hn

@[simp] theorem State.rd_setReg_same (s : State) (i : BitVec 5) (d : Byte) :
    (s.setReg i d).rd i = d := by simp [State.rd_setReg]

theorem State.rd_setReg_other (s : State) {i j : BitVec 5} (d : Byte) (h : j ≠ i) :
    (s.setReg i d).rd j = s.rd j := by simp [State.rd_setReg, h]

section congr

variable {s t : State} (hc : s.cfg = t.cfg) (hr : s.reg = t.reg)

include hr in
theorem State.rd_congr (i : BitVec 5) : s.rd i = t.rd i := by simp [State.rd, hr]

include hc hr in
theorem State.m5_congr : s.m5 = t.m5 := by simp [State.m5, hc, State.rd_congr hr]

include hc hr in
theorem State.h40_congr : s.h40 = t.h40 := by
  simp [State.h40, State.m5_congr hc hr, State.rd_congr hr]

include hc hr in
theorem State.renderModeNow_congr : s.renderModeNow = t.renderModeNow := by
  unfold State.renderModeNow State.im2 State.lsm State.m4sel
  rw [State.m5_congr hc hr, State.rd_congr hr, State.rd_congr hr, hc]

include hc hr in
theorem State.displayLinesNow_congr : s.displayLinesNow = t.displayLinesNow := by
  unfold State.displayLinesNow State.v30 State.m1 State.m2 State.m3
  rw [State.renderModeNow_congr hc hr, State.m5_congr hc hr, State.rd_congr hr, State.rd_congr hr]

include hc hr in
theorem State.backdropIdx_congr : s.backdropIdx = t.backdropIdx := by
  unfold State.backdropIdx
  rw [State.m5_congr hc hr, State.rd_congr hr]

include hc hr in
theorem State.latencyNow_congr (hk : s.code = t.code) : s.latencyNow = t.latencyNow := by
  unfold State.latencyNow State.vramTarget State.target
  rw [State.h40_congr hc hr, hc, hk]

end congr

end Sys2Proof.Machine
end

