-- ==== Sys2Proof/Laws/Words.lean ====
section
/-! SUPPORT. Facts on the bit fields of words, addresses and colours that the operations on banks use, and
the SAT mirror. -/

namespace Sys2Proof.Machine

/-- The even address of a word as a number (R77). -/
theorem evenAddr_toNat (a : Word) : (evenAddr a).toNat = a.toNat / 2 * 2 := by
  have h : evenAddr a = (a >>> 1) <<< 1 := by
    unfold evenAddr
    ext i hi
    simp only [BitVec.getElem_and, BitVec.getElem_shiftLeft]
    interval_cases i <;> simp
  rw [h, BitVec.toNat_shiftLeft, BitVec.toNat_ushiftRight, Nat.shiftRight_eq_div_pow,
    Nat.shiftLeft_eq]
  have := a.isLt
  omega

/-- The odd address of a word as a number (R77). -/
theorem evenAddr_succ_toNat (a : Word) :
    (evenAddr a + 1#16).toNat = a.toNat / 2 * 2 + 1 := by
  have := a.isLt
  rw [BitVec.toNat_add, evenAddr_toNat]
  simp only [BitVec.toNat_ofNat]
  omega

/-- The index of a VSRAM word as a number (R80). -/
theorem vsramIdx_eq (a : Word) : vsramIdx a = 2 * (a.toNat / 2 % 64) := by
  have h : a &&& 0x7E#16 = ((a.extractLsb' 1 6).setWidth 16) <<< 1 := by
    ext i hi
    simp only [BitVec.getElem_and, BitVec.getElem_shiftLeft]
    interval_cases i <;> simp
  unfold vsramIdx
  rw [h, BitVec.toNat_shiftLeft, BitVec.toNat_setWidth, BitVec.extractLsb'_toNat,
    Nat.shiftRight_eq_div_pow, Nat.shiftLeft_eq]
  omega

/-- Two fields put together, as numbers. -/
theorem append_toNat {n m : Nat} (a : BitVec n) (b : BitVec m) :
    (a ++ b).toNat = a.toNat * 2 ^ m + b.toNat := by
  rw [BitVec.toNat_append, ← Nat.shiftLeft_add_eq_or_of_lt b.isLt, Nat.shiftLeft_eq]

/-- A word is its high byte above its low byte. -/
theorem hiByte_append_loByte (w : Word) : (hiByte w ++ loByte w : BitVec 16) = w := by
  apply BitVec.eq_of_toNat_eq
  have := w.isLt
  simp only [append_toNat, hiByte, loByte, BitVec.extractLsb'_toNat, Nat.shiftRight_eq_div_pow]
  omega

/-- The high byte of two bytes put together. -/
theorem hiByte_append (a b : Byte) : hiByte (a ++ b) = a := by
  apply BitVec.eq_of_toNat_eq
  have := a.isLt
  have := b.isLt
  simp only [append_toNat, hiByte, BitVec.extractLsb'_toNat, Nat.shiftRight_eq_div_pow]
  omega

/-- The low byte of two bytes put together. -/
theorem loByte_append (a b : Byte) : loByte (a ++ b) = b := by
  apply BitVec.eq_of_toNat_eq
  have := b.isLt
  simp only [append_toNat, loByte, BitVec.extractLsb'_toNat, Nat.shiftRight_eq_div_pow]
  omega

/-- A colour is the low bit of its odd byte above its even byte (R73). -/
theorem colour_of_bytes (v : Colour) :
    (((v.extractLsb' 8 1).setWidth 8).extractLsb' 0 1 ++ v.extractLsb' 0 8 : BitVec 9) = v := by
  apply BitVec.eq_of_toNat_eq
  have := v.isLt
  simp only [append_toNat, BitVec.extractLsb'_toNat, BitVec.toNat_setWidth,
    Nat.shiftRight_eq_div_pow]
  omega

/-- A SAT shadow byte after the mirror of an array element (R75). -/
theorem State.satMirror_sat_read (s : State) (i : Word) (v : Byte) (j : Nat) :
    (s.satMirror i v).sat.read j =
      if s.inSat i = true ∧ j = s.satIdx i then v else s.sat.read j := by
  unfold State.satMirror
  by_cases h : s.inSat i = true <;> simp [h, Memory.read_write]

/-- What an element in the SAT's range says of its logical address (R75). -/
theorem State.inSat_iff (s : State) (i : Word) : s.inSat i = true ↔
    s.satRange.1.toNat ≤ (s.logIdx i).toNat ∧
      (s.logIdx i).toNat < s.satRange.1.toNat + s.satRange.2 := by
  simp [State.inSat]

end Sys2Proof.Machine
end

