-- ==== Sys2Proof/Tests/Slice0.lean ====
section
/-! SUPPORT. Tests of the model on the spec's own vectors (95_test_vectors.md), the well-formedness smoke
test, encodings written out bit by bit from 30_encoding.md, and for every statement with hypotheses a
witness that meets them. -/

namespace Sys2Proof.Tests

open Sys2Proof Sys2Proof.Machine

-- Many short evaluations: one after another they need no thread each.
set_option Elab.async false

/-! ### Fixtures -/

/-- The test parameter set TP of 95_test_vectors.md §0, as far as the tests here read it. -/
def tp (v : Variant) : Config where
  variant := v
  pal := false
  cyclesPerLine := 3420
  linesPerFrame := 262
  fifoLatency := ⟨100, 100, 100, 100⟩
  dmaRate := ⟨16, 18, 167, 205⟩
  z80RegMask := 0x0F#8
  dmaSourceWriteback := false
  vblankByFrame := true
  vcMax := [((.mode5Progressive, .lines224), 0xEA), ((.mode5Interlaced, .lines224), 0xEA),
    ((.tms, .lines192), 0xDA)]
  hc32 := [0x34#8, 0x35#8]
  hc40 := []
  satRange := .constant 0xFC00#16 512
  tms4kMap := [(0x1800#14, 0x0820#14)]
  busWords := [(0x001000#24, 0x0800#16)]

/-- A fresh instance with the test parameters. -/
def fresh (v : Variant) : State := State.create (tp v)

/-- A register as the bus would have left it, the caches and the latency recomputed. -/
def withReg (i : BitVec 5) (d : Byte) (s : State) : State :=
  (s.setReg i d).recomputeDerived.relatch

/-- A Mega Drive instance: register 1 as given, increment 2. -/
def md (r1 : Byte) : State := withReg 15 2 (withReg 1 r1 (fresh .v68k))

/-- An address and a code as a control sequence would have left them. -/
def pointed (addr : BitVec 16) (code : BitVec 6) (s : State) : State :=
  { s with addr := addr, code := code }.relatch

/-- A Mega Drive instance with a DMA of a kind in flight. -/
def busy (k : DmaKind) (len : Nat) : State :=
  { pointed 0x0100#16 0x21#6 (md 0x54#8) with
    dmaType := some k, dmaRemaining := len, dmaSource := 0x001000#24, fillByte := 0xAB#8 }

/-- An outcome is a next state with a property. -/
def nextIs (r : Res) (p : State → Bool) : Bool :=
  match r with
  | .next s => p s
  | .fault _ => false
  | .refused _ => false

/-- An outcome is a fault. -/
def faultIs (r : Res) (f : Fault) : Bool :=
  match r with
  | .next _ => false
  | .fault g => decide (g = f)
  | .refused _ => false

/-- An outcome is a refusal. -/
def refusedIs (r : Res) (q : Refusal) : Bool :=
  match r with
  | .next _ => false
  | .fault _ => false
  | .refused p => decide (p = q)

/-- A decoded access. -/
def decodes (v : Variant) (pending : Bool) (a : Access) (i : Instr) : Bool :=
  match decode v pending a with
  | .ok j => decide (j = i)
  | .error _ => false

/-- A rejected access. -/
def rejects (v : Variant) (pending : Bool) (a : Access) (r : Reject) : Bool :=
  match decode v pending a with
  | .ok _ => false
  | .error q => decide (q = r)

/-- A snapshot of a fresh instance with some fields replaced. -/
def blank : Snapshot := (fresh .v68k).capture

/-! ### Well-formedness: an ill-formed term for each check, which the check refuses -/

theorem test_a1_top_bits_10_ill_formed : (Instr.ctrlA1 0b10#2 0#14 0).wellFormed = false := by decide

theorem test_b2_code_10_ill_formed : (Instr.ctrlB2Addr 0b10#2 0#6 0).wellFormed = false := by decide

theorem test_snapshots_ill_formed :
    ({ blank with vram := [(65536, 1#8)] } : Snapshot).form = false ∧
    ({ blank with vram := [(5, 1#8), (4, 1#8)] } : Snapshot).form = false ∧
    ({ blank with vram := [(5, 0#8)] } : Snapshot).form = false ∧
    ({ blank with cram := [(1, 2#8)] } : Snapshot).form = false ∧
    ({ blank with cram := [(128, 1#8)] } : Snapshot).form = false ∧
    ({ blank with vsram := [(128, 1#8)] } : Snapshot).form = false ∧
    ({ blank with fifoCount := 5 } : Snapshot).form = false ∧
    ({ blank with dmaRemaining := 65537 } : Snapshot).form = false ∧
    ({ blank with status := 0x0100#16 } : Snapshot).form = false ∧
    ({ blank with status := 0x0001#16 } : Snapshot).form = false ∧
    blank.form = true := by decide

theorem test_ill_formed_deserialize_refused :
    (Instr.deserialize { blank with fifoCount := 5 } 0).wellFormed = false ∧
    rejects .v68k false (.deserialize { blank with fifoCount := 5 } 0) .badSnapshot = true := by
  decide

/-! ### Decoding: words written out bit by bit from 30_encoding.md -/

/-- R101: `10`, ignored bit 1, index 01111, data 00000010. -/
theorem test_decode_rw :
    decodes .v68k false (.write16 .control 0b1010111100000010#16 3) (.ctrlRw 1#1 15#5 2#8 3) := by
  decide

/-- R102: code bits 01, address 00000100000000; and code bits 11 and 00. -/
theorem test_decode_a1 :
    decodes .v68k false (.write16 .control 0b0100000100000000#16 3) (.ctrlA1 1#2 0x100#14 3) ∧
    decodes .v68k false (.write16 .control 0b1111111111111110#16 3) (.ctrlA1 3#2 0x3FFE#14 3) ∧
    decodes .v68k false (.write16 .control 0b0000000000000001#16 3) (.ctrlA1 0#2 1#14 3) := by
  decide

/-- R103: ignored 10001111, CD5..CD2 1001, ignored 01, A15:A14 10; top bits 10 are no register write. -/
theorem test_decode_a2 :
    decodes .v68k true (.write16 .control 0b1000111110010110#16 3)
      (.ctrlA2 0x8F#8 0b1001#4 1#2 2#2 3) := by decide

/-- R104, R105, R106: the bytes of the byte variants. -/
theorem test_decode_bytes :
    decodes .vz80Md4 false (.write8 .control 0b00110100#8 3) (.ctrlB1 0x34#8 3) ∧
    decodes .vTms false (.write8 .control 0b10110100#8 3) (.ctrlB1 0xB4#8 3) ∧
    decodes .vz80Sms true (.write8 .control 0b01111000#8 3) (.ctrlB2Addr 1#2 0x38#6 3) ∧
    decodes .vz80Gg true (.write8 .control 0b10001011#8 3) (.ctrlB2Reg 11#6 3) ∧
    decodes .vTms true (.write8 .control 0b01011000#8 3) (.ctrlT2Addr 1#1 0x18#6 3) ∧
    decodes .vTms true (.write8 .control 0b11111001#8 3) (.ctrlT2Reg 0b1111#4 1#3 3) := by decide

/-- R107, R114: data, status and counter accesses, by port, direction and width. -/
theorem test_decode_ports :
    decodes .v68k true (.write16 .data 0x1234#16 3) (.dataW16 0x1234#16 3) ∧
    decodes .vTms true (.write8 .data 0x12#8 3) (.dataW8 0x12#8 3) ∧
    decodes .v68k true (.read16 .data 3) (.dataR16 3) ∧
    decodes .vz80Gg true (.read8 .data 3) (.dataR8 3) ∧
    decodes .v68k true (.read16 .control 3) (.ctrlR16 3) ∧
    decodes .vz80Sms false (.read8 .control 3) (.ctrlR8 3) ∧
    decodes .v68k false (.read16 .hv 3) (.hvR16 3) ∧
    decodes .vz80Sms false (.read8 .vCounter 3) (.vR8 3) ∧
    decodes .vz80Md4 false (.read8 .hCounter 3) (.hR8 3) := by decide

/-- R114: the host operations, on every variant. -/
theorem test_decode_host :
    decodes .vTms false (.advance 3) (.advance 3) ∧
    decodes .vTms true (.latchHv 3) (.latchHv 3) ∧
    decodes .v68k false (.raster 8#8 4#8 3) (.raster 8#8 4#8 3) ∧
    decodes .vz80Sms false (.reset 3) (.reset 3) ∧
    decodes .v68k false (.serialize 3) (.serialize 3) ∧
    decodes .v68k false (.deserialize blank 3) (.deserialize blank 3) := by decide

/-- R84, R114: accesses the variant has not are rejected by name. -/
theorem test_decode_rejects :
    rejects .v68k false (.write8 .data 1#8 0) .byteAccess68K ∧
    rejects .vz80Sms false (.write16 .data 1#16 0) .wordAccessByteVariant ∧
    rejects .v68k false (.read16 .vCounter 0) .noSuchPort ∧
    rejects .vz80Sms false (.write8 .hCounter 1#8 0) .noSuchPort := by decide

/-- The bare words of the opcode table (log entry 12): CTRL_RW's and CTRL_T2_REG's. -/
theorem test_decode_table_words :
    decodeTableWord 16 0x8F02 = some (.ctrlRw 0#1 15#5 2#8 0) ∧
    decodeTableWord 8 0x81 = some (.ctrlT2Reg 0#4 1#3 0) := by decide

/-- Step runs a bare word as the first operation after reset. -/
theorem test_fetch_word_runs :
    nextIs (step (State.reset.withFetchWord 16 0x8104)) (fun n => decide (n.rd 1 = 4#8)) = true := by
  decide +kernel

/-! ### The spec's vectors -/

/-- S1a, S1b, S1c: register 11 ignored while Mode 5 is off, registers 10 and 31 written. -/
theorem test_register_writes_mode_4 :
    nextIs (exec (.ctrlRw 0 11 0x55 0) (fresh .v68k)) (fun n => decide (n.rd 11 = 0)) ∧
    nextIs (exec (.ctrlRw 0 10 0x55 0) (fresh .v68k)) (fun n => decide (n.rd 10 = 0x55)) ∧
    nextIs (exec (.ctrlRw 0 31 0x55 0) (fresh .v68k)) (fun n => decide (n.rd 31 = 0x55)) := by
  decide +kernel

/-- C11, C13: Mode 5 on, then off with a FIFO that held three writes. -/
theorem test_mode_5_on_and_off :
    nextIs (exec (.ctrlRw 0 1 0x04 7) (fresh .v68k)) (fun n =>
      decide (n.renderMode = .mode5Progressive ∧ n.displayLines = .lines224 ∧
        n.fifoLastWrite = 7)) ∧
    nextIs (exec (.ctrlRw 0 1 0x08 7) { md 4 with fifoCount := 3 }) (fun n =>
      decide (n.renderMode = .tms ∧ n.displayLines = .lines192 ∧ n.fifoCount = 0)) := by
  decide +kernel

/-- C3: the first address word keeps the other halves. -/
theorem test_a1_keeps_other_bits :
    nextIs (exec (.ctrlA1 1 0x100 0) (pointed 0xC000 0x21 (fresh .v68k))) (fun n =>
      decide (n.addr = 0xC100 ∧ n.code = 0x21 ∧ n.pending = true)) := by decide +kernel

/-- C4: a second word with top bits 10 is an address word. -/
theorem test_a2_is_an_address_word :
    nextIs (exec (.ctrlA2 0x8F 0 0 2 0) { pointed 0x0100 1 (md 4) with pending := true }) (fun n =>
      decide (n.addr = 0x8100 ∧ n.code = 1 ∧ n.pending = false ∧ n.rd 15 = 2)) := by
  decide +kernel

/-- P2's trigger: a VramFill of four bytes is armed. -/
theorem test_a2_arms_a_fill :
    nextIs (exec (.ctrlA2 0 0b1000 0 0 0)
      (pointed 0x00FE 1 (withReg 23 0x80 (withReg 19 4 (md 0x14))))) (fun n =>
      decide (n.dmaType = some .vramFill ∧ n.dmaRemaining = 4 ∧ n.fillArmed = true ∧
        n.code = 0x21)) := by decide +kernel

/-- Z1: the first byte goes to the latch only. -/
theorem test_b1_latches :
    nextIs (exec (.ctrlB1 0x34 0) (fresh .vz80Sms)) (fun n =>
      decide (n.ctrlLatch = 0x34 ∧ n.pending = true ∧ n.addr = 0)) := by decide +kernel

/-- Z3: a read code prefetches. -/
theorem test_b2_addr_prefetches :
    nextIs (exec (.ctrlB2Addr 0 0x38 0) { fresh .vz80Sms with vram := [(0x3800, 0xAA)] }) (fun n =>
      decide (n.readBuf = 0x00AA ∧ n.addr = 0x3801 ∧ n.code = 0)) := by decide +kernel

/-- Z4, Z7: a register write also sets the address and the code; the index is masked. -/
theorem test_b2_reg_writes :
    nextIs (exec (.ctrlB2Reg 0 0) { fresh .vz80Sms with ctrlLatch := 0x36 }) (fun n =>
      decide (n.rd 0 = 0x36 ∧ n.addr = 0x0036 ∧ n.code = 2 ∧ n.renderMode = .mode4)) ∧
    nextIs (exec (.ctrlB2Reg 0x1F 0) { fresh .vz80Sms with ctrlLatch := 0x12 }) (fun n =>
      decide (n.rd 31 = 0 ∧ n.rd 15 = 0 ∧ n.addr = 0x1F12)) := by decide +kernel

/-- T2, and R157: an address with the big VRAM bit set, and one un-scrambled without it. -/
theorem test_t2_addr :
    nextIs (exec (.ctrlT2Addr 1 0x18 0) (withReg 1 0x80 (fresh .vTms))) (fun n =>
      decide (n.addr = 0x1800 ∧ n.code = 1)) ∧
    nextIs (exec (.ctrlT2Addr 1 0x18 0) (fresh .vTms)) (fun n => decide (n.addr = 0x0820)) := by
  decide +kernel

/-- T1, T3: register writes leave the address and the code. -/
theorem test_t2_reg :
    nextIs (exec (.ctrlT2Reg 0 1 0) { pointed 5 1 (fresh .vTms) with ctrlLatch := 0xE0 }) (fun n =>
      decide (n.rd 1 = 0xE0 ∧ n.addr = 5 ∧ n.code = 1 ∧ n.bigVram = true)) ∧
    nextIs (exec (.ctrlT2Reg 1 7 0) { fresh .vTms with ctrlLatch := 0x12 }) (fun n =>
      decide (n.rd 7 = 0x12)) := by decide +kernel

/-- W1, W2, W4, W6: VRAM at an even and an odd address, CRAM, VSRAM. -/
theorem test_data_w16_targets :
    nextIs (exec (.dataW16 0x1234 0) (pointed 0x0100 1 (md 4))) (fun n =>
      decide (n.vram = [(0x100, 0x34), (0x101, 0x12)] ∧ n.addr = 0x0102 ∧ n.dirty = [8])) ∧
    nextIs (exec (.dataW16 0x1234 0) (pointed 0x0101 1 (md 4))) (fun n =>
      decide (n.vram = [(0x100, 0x12), (0x101, 0x34)] ∧ n.addr = 0x0103)) ∧
    nextIs (exec (.dataW16 0x0EEE 0) (pointed 0x0002 3 (md 4))) (fun n =>
      decide (n.cram = [(2, 0xFF), (3, 0x01)] ∧ n.addr = 0x0004)) ∧
    nextIs (exec (.dataW16 0x0123 0) (pointed 0x0002 5 (md 4))) (fun n =>
      decide (n.vsram = [(2, 0x23), (3, 0x01)])) := by decide +kernel

/-- W10: the SAT shadow in logical order; S6: the fifth write stalls. -/
theorem test_data_w16_sat_and_stall :
    nextIs (exec (.dataW16 0x1234 0) (pointed 0xFC00 1 (md 4))) (fun n =>
      decide (n.sat = [(0, 0x12), (1, 0x34)])) ∧
    nextIs (exec (.dataW16 5 1000)
      { pointed 8 1 (md 0x44) with fifoCount := 4, fifoLastWrite := 1000 }) (fun n =>
      decide (n.out.clock = 1100 ∧ n.fifoCount = 4 ∧ n.fifoLastWrite = 1100)) := by decide +kernel

/-- W13, W15: the Master System's colour, and the Game Gear's pair at its odd byte. -/
theorem test_data_w8_cram :
    nextIs (exec (.dataW8 0x3F 0) (pointed 5 3 (fresh .vz80Sms))) (fun n =>
      decide (n.cram = [(10, 0xB6), (11, 0x01)] ∧ n.addr = 6)) ∧
    nextIs (exec (.dataW8 0x0F 0)
      { pointed 5 3 (fresh .vz80Gg) with ggLatch := 0xEE }) (fun n =>
      decide (n.cram = [(4, 0xFF), (5, 0x01)] ∧ n.addr = 6 ∧ n.readBuf = 0x000F)) := by
  decide +kernel

/-- W14, W16: the address wraps at 2^14; `VTMS` writes VRAM whatever the code. -/
theorem test_data_w8_vram :
    nextIs (exec (.dataW8 1 0) (pointed 0x3FFF 1 (fresh .vz80Sms))) (fun n =>
      decide (n.vram = [(0x3FFF, 1)] ∧ n.addr = 0)) ∧
    nextIs (exec (.dataW8 0x55 0) (pointed 0x1800 3 (fresh .vTms))) (fun n =>
      decide (n.vram = [(0x1800, 0x55)] ∧ n.readBuf = 0x0055)) := by decide +kernel

/-- R192's example: the word returned is the buffer's, the refill is the target's. -/
theorem test_data_r16_buffered :
    nextIs (exec (.dataR16 0)
      { pointed 0x0100 0 (md 4) with
        readBuf := 0xBEEF, vram := [(0x100, 0x34), (0x101, 0x12)] }) (fun n =>
      decide (n.out.value = some 0xBEEF ∧ n.readBuf = 0x1234 ∧ n.addr = 0x0102)) := by
  decide +kernel

/-- R198's example. -/
theorem test_data_r8_buffered :
    nextIs (exec (.dataR8 0)
      { pointed 0x3801 0 (fresh .vz80Sms) with readBuf := 0xAA, vram := [(0x3801, 0xBB)] }) (fun n =>
      decide (n.out.value = some 0xAA ∧ n.readBuf = 0xBB ∧ n.addr = 0x3802)) := by decide +kernel

/-- R210's example: what a status read leaves (its value's bits 15:10 are free), and the value composed. -/
theorem test_ctrl_r16_clears :
    nextIs (exec (.ctrlR16 0) { md 4 with status := 0x0088, pending := true }) (fun n =>
      decide (n.status = 0x0008 ∧ n.pending = false)) ∧
    State.statusValue { md 4 with status := 0x0088 } = 0x0288 := by decide +kernel

/-- S6, R242: the FIFO drains at a status read. -/
theorem test_ctrl_r16_drains :
    nextIs (exec (.ctrlR16 1250) { md 0x44 with fifoCount := 4, fifoLastWrite := 1100 }) (fun n =>
      decide (n.fifoCount = 3 ∧ n.fifoLastWrite = 1200)) := by decide +kernel

/-- R211's example: what the read leaves. -/
theorem test_ctrl_r8_clears :
    nextIs (exec (.ctrlR8 0) { fresh .vz80Sms with status := 0x00A0, pending := true }) (fun n =>
      decide (n.status = 0 ∧ n.pending = false)) := by decide +kernel

/-- 95_test_vectors.md, HV at t = 3420 and at the jump-back lines 235 and 236; V8: interlaced. -/
theorem test_hv_r16 :
    nextIs (exec (.hvR16 3420) (md 4)) (fun n => decide (n.out.value = some 0x0034)) ∧
    nextIs (exec (.hvR16 803700) (md 4)) (fun n => decide (n.out.value = some 0xEA34)) ∧
    nextIs (exec (.hvR16 807120) (md 4)) (fun n => decide (n.out.value = some 0xE534)) ∧
    nextIs (exec (.hvR16 61560) (withReg 12 2 (md 4))) (fun n =>
      decide (n.out.value = some 0x1034)) := by
  decide +kernel

/-- R220: a latched pair, whole in Mode 5, its horizontal half in Mode 4. -/
theorem test_hv_r16_latched :
    nextIs (exec (.hvR16 3420) { md 4 with hvLatch := some 0x1277 }) (fun n =>
      decide (n.out.value = some 0x1277)) ∧
    nextIs (exec (.hvR16 3420) { fresh .v68k with hvLatch := some 0x1277 }) (fun n =>
      decide (n.out.value = some 0x0077)) := by decide +kernel

/-- R226: the byte counters. -/
theorem test_v_r8 :
    nextIs (exec (.vR8 6840) (fresh .vz80Sms)) (fun n => decide (n.out.value = some 1)) ∧
    refusedIs (exec (.vR8 0) (fresh .vTms)) .noCounterPortTMS := by decide +kernel

/-- R226: the horizontal counter, live and latched. -/
theorem test_h_r8 :
    nextIs (exec (.hR8 3421) (fresh .vz80Sms)) (fun n => decide (n.out.value = some 0x35)) ∧
    nextIs (exec (.hR8 3421) { fresh .vz80Sms with hvLatch := some 0x1277 }) (fun n =>
      decide (n.out.value = some 0x77)) := by decide +kernel

/-- R265, R267: a copy's last step: four units left, clamped, cost floor(4 * 3420 / 16) = 855; R283: no DMA. -/
theorem test_advance_completes :
    nextIs (exec (.advance 6840)
      { withReg 19 20 (busy .vramCopy 4) with dmaSource := 0 }) (fun n =>
      decide (n.dmaType = none ∧ n.rd 19 = 0 ∧ n.out.clock = 6840 ∧ n.dmaEndCycles = 7695 ∧
        n.status = 2)) ∧
    faultIs (exec (.advance 0) (md 4)) .advanceWithoutDma := by decide +kernel

/-- P2: the fill writes at the addresses with bit 0 flipped. -/
theorem test_advance_fills :
    nextIs (exec (.advance 0) (busy .vramFill 4)) (fun n =>
      decide (n.vram = [(0x101, 0xAB), (0x103, 0xAB), (0x105, 0xAB), (0x107, 0xAB)] ∧
        n.addr = 0x108)) := by decide +kernel

/-- S7: one VBusToVram unit, the clock frozen. -/
theorem test_bus_unit :
    (busy .vbusToVram 1).dmaUnit.vram = [(0x101, 0x08)] ∧
    (busy .vbusToVram 1).dmaUnit.dmaSource = 0x001002 ∧
    nextBusSource 0x01FFFE = 0 ∧ nextBusSource 0x03FFFE = 0x020000 ∧
    State.stepClock 6840 (busy .vbusToVram 4) = 8550 := by decide +kernel

/-- R225: taken in Mode 4, ignored in Mode 5 while the latch is disabled. -/
theorem test_latch_hv :
    nextIs (exec (.latchHv 3420) (fresh .v68k)) (fun n => decide (n.hvLatch = some 0x0034)) ∧
    nextIs (exec (.latchHv 3420) (md 4)) (fun n => decide (n.hvLatch = none)) := by decide +kernel

/-- R307: bits 2 to 7 only. -/
theorem test_raster :
    nextIs (exec (.raster 0xFF 0 0) (fresh .v68k)) (fun n => decide (n.status = 0x00FC)) ∧
    nextIs (exec (.raster 0 0xFF 0) { fresh .v68k with status := 0x00FE }) (fun n =>
      decide (n.status = 0x0002)) := by decide +kernel

/-- R342: a DMA in flight is destroyed, the time is kept. -/
theorem test_reset :
    nextIs (exec (.reset 9) (busy .vbusToVram 4)) (fun n =>
      decide (n.dmaType = none ∧ n.rd 1 = 0 ∧ n.lastT = 9 ∧ n.renderMode = .tms)) := by
  decide +kernel

/-- R303: nothing changes but the kept timestamp; the snapshot holds the registers. -/
theorem test_serialize :
    nextIs (exec (.serialize 9) (md 4)) (fun n =>
      decide (n = { md 4 with lastT := 9, out := n.out }) &&
      decide (n.out.snapshot.map (fun x => x.reg) = some (md 4).reg)) := by decide +kernel

/-- R305: the caches are rebuilt from the restored registers, every tile is dirty. -/
theorem test_deserialize :
    nextIs (exec (.deserialize { (md 4).capture with vram := [(0xFC00, 7)] } 0) (fresh .v68k))
      (fun n => decide (n.renderMode = .mode5Progressive ∧ n.dirty.length = 2048 ∧
        n.sat = [(1, 7)])) := by decide +kernel

/-- D12: a fill whose code is no VRAM write leaves the refusal mark after the data word's write. -/
theorem test_fill_non_vram :
    nextIs (exec (.dataW16 0x0EEE 0)
      { pointed 0 0x23 (md 0x14) with
        dmaType := some .vramFill, dmaRemaining := 2, fillArmed := true }) (fun n =>
      decide (n.cram = [(0, 0xFF), (1, 0x01)] ∧ n.refused = some .fillNonVram ∧
        n.fillByte = 0x0E)) := by decide +kernel

/-- R281, R326: one deferred write, then a fault. -/
theorem test_deferral :
    nextIs (exec (.ctrlRw 0 15 4 9) (busy .vbusToVram 4)) (fun n =>
      decide (n.deferredCtrl = some 0x8F04 ∧ n.rd 15 = 2)) ∧
    faultIs (exec (.ctrlRw 0 15 4 9) { busy .vbusToVram 4 with deferredCtrl := some 0 })
      .deferredOverflow ∧
    faultIs (exec (.dataR16 9) (busy .vbusToVram 4)) .accessWhileFrozen := by decide +kernel

/-- D7 with one word left, R273, R282: the deferred word is run at the end of the step that completes, the cost
floor(3420 / 8) = 427. -/
theorem test_deferred_write_replayed :
    nextIs (exec (.advance 0) { busy .vbusToVram 1 with deferredCtrl := some 0x8F04 }) (fun n =>
      decide (n.rd 15 = 4 ∧ n.deferredCtrl = none ∧ n.dmaType = none ∧ n.out.clock = 427)) := by
  decide +kernel

/-- R274: the final source cursor written back where the instance does so, words for VBusToVram. -/
theorem test_source_writeback :
    nextIs (exec (.advance 0)
      { busy .vbusToVram 1 with cfg := { tp .v68k with dmaSourceWriteback := true } }) (fun n =>
      decide (n.rd 21 = 0x01 ∧ n.rd 22 = 0x08 ∧ n.dmaSource = 0x001002)) := by decide +kernel

/-- R325: a stuck CPU's access is passed over, and the host's operation behind it runs. -/
theorem test_stuck_run_is_not_final :
    nextIs (step { md 4 with
      cpuStuck := true, inbox := [.op (.read16 .data 0), .op (.raster 8 0 0)] }) (fun n =>
      decide (n.inbox = [.op (.raster 8 0 0)] ∧ n.faulted = none) &&
      nextIs (step n) (fun m => decide (m.status = 8))) := by decide +kernel

/-- R326: while VBusToVram is in flight a 68000 byte write to the control port is not refused first. -/
theorem test_frozen_byte_write :
    faultIs (step { busy .vbusToVram 4 with inbox := [.op (.write8 .control 1 0)] })
      .accessWhileFrozen := by decide +kernel

/-- R75: the candidate ranges by mode, from the registers: Mode 5 in H32 and H40, Mode 4, TMS. -/
theorem test_sat_candidates :
    (∀ p ∈ ([(withReg 5 0x7F (md 4), 0xFE00#16, 512), (withReg 12 1 (withReg 5 0x7F (md 4)), 0xFC00, 1024),
        (withReg 5 0xFF (withReg 0 4 (fresh .vz80Sms)), 0x3F00, 256),
        (withReg 5 0x36 (fresh .vTms), 0x1B00, 128)] : List (State × Word × Nat)),
      ({ p.1 with cfg := { p.1.cfg with satRange := .candidate } } : State).satRange = p.2) := by
  decide +kernel

/-- R301, R322: ADVANCE with no DMA keeps its timestamp and then raises; a TimeReversal moves nothing. -/
theorem test_fault_keeps_timestamp :
    leave (.advance 9) (md 4) (exec (.advance 9) (md 4)) =
      { md 4 with lastT := 9, faulted := some .advanceWithoutDma } ∧
    leave (.reset 4) { md 4 with lastT := 5 } (exec (.reset 4) { md 4 with lastT := 5 }) =
      { md 4 with lastT := 5, faulted := some .timeReversal } := by decide +kernel

/-! ### Witnesses: states and operands that meet the hypotheses of each statement, clause by clause -/

/-- Ready instances of every variant: the hypotheses of ResetZeroesTheBlock, IgnoredBitsHaveNoEffect,
CtrlRwWritesRegisterAtOnce, CtrlA1LatchesFirstHalf, CtrlB2RegWritesRegister, TmsSecondByte,
ByteAddressSequence, DataR8IsBuffered, CtrlR16ReadsAndClears, CtrlR8ReadsAndClears, RasterSetsTimingBits. -/
theorem witness_ready :
    HostReady State.reset 0 ∧ PortReady State.reset 0 ∧ State.reset.cfg.variant = .v68k ∧
    PortReady (md 0x54) 5 ∧ (md 0x54).cfg.variant = .v68k ∧ (md 0x54).m5 = true ∧
    PortReady (fresh .vz80Sms) 0 ∧ (fresh .vz80Sms).cfg.variant.isZ80 = true ∧
    PortReady (fresh .vz80Md4) 0 ∧ (fresh .vz80Md4).cfg.variant.isByte = true ∧
    PortReady (fresh .vz80Gg) 0 ∧ PortReady (fresh .vTms) 0 ∧ (fresh .vTms).cfg.variant = .vTms := by
  decide +kernel

theorem witness_VramPutStoresMarksMirrors :
    (fresh .v68k).vram.read 0xFFFF = 0#8 ∧ (fresh .v68k).vram.read 0xFFFF ≠ 1#8 ∧
    (fresh .v68k).satRange.1.toNat ≤ ((fresh .v68k).logIdx 0xFC01).toNat ∧
    ((fresh .v68k).logIdx 0xFDFE).toNat <
      (fresh .v68k).satRange.1.toNat + (fresh .v68k).satRange.2 := by
  decide +kernel

theorem witness_VramWordsAreLittleEndian :
    (fresh .v68k).vram.read 0xFFFE = 0#8 ∧ (fresh .v68k).vram.read 0xFFFF = 0#8 ∧
    (0xFFFF#16).toNat / 2 * 2 = 0xFFFE ∧ (0xFFFE#16).toNat / 2 = (0xFFFF#16).toNat / 2 ∧
    ((fresh .v68k).logIdx (0xFC00#16 &&& 0xFFFE#16)).toNat = 0xFC01 ∧
    ((fresh .v68k).logIdx (0xFC00#16 ||| 0x0001#16)).toNat = 0xFC00 ∧
    (fresh .v68k).satRange.1.toNat = 0xFC00 ∧ ¬ (0xFE00 < 0xFC00 + (fresh .v68k).satRange.2) := by
  decide +kernel

theorem witness_DecodeOfEncode :
    ∀ p ∈ ([(.ctrlRw 1 31 255 0, .v68k, false), (.ctrlA1 3 0x3FFF 0, .v68k, false),
        (.ctrlA2 0x80 15 3 3 0, .v68k, true), (.ctrlB1 255 0, .vTms, false),
        (.ctrlB2Addr 3 63 0, .vz80Gg, true), (.ctrlB2Reg 63 0, .vz80Sms, true),
        (.ctrlT2Addr 1 63 0, .vTms, true), (.ctrlT2Reg 15 7 0, .vTms, true),
        (.dataW16 0 0, .v68k, true), (.dataW8 0 0, .vz80Md4, true), (.dataR16 0, .v68k, false),
        (.dataR8 0, .vTms, false), (.ctrlR16 0, .v68k, true), (.ctrlR8 0, .vTms, true),
        (.hvR16 0, .v68k, true), (.vR8 0, .vz80Sms, true), (.hR8 0, .vTms, true),
        (.advance 0, .vTms, false), (.latchHv 0, .v68k, true), (.raster 1 2 0, .v68k, false),
        (.reset 0, .vTms, true), (.serialize 0, .vTms, true),
        (.deserialize blank 0, .v68k, true)] : List (Instr × Variant × Bool)),
      p.1.wellFormed = true ∧ p.1.on p.2.1 = true ∧ p.1.atPhase p.2.2 = true := by decide +kernel

theorem witness_EncodeOfDecode :
    decode .v68k false (.write16 .control 0xBFFF 0) = .ok (.ctrlRw 1 31 255 0) ∧
    decode .vTms true (.write8 .control 0xFF 0) = .ok (.ctrlT2Reg 15 7 0) := ⟨rfl, rfl⟩

theorem witness_EveryPortAccessDecodes :
    Variant.isByte .vz80Md4 = true ∧ Variant.isByte .vz80Sms = true ∧
    Variant.isByte .vz80Gg = true ∧ Variant.isByte .vTms = true := by decide

theorem witness_StepRunsTheDecodedOperation :
    (∃ s : State, s.inbox = [.op (.write16 .control 0x8104 0)] ∧
      ¬ ((Access.write16 .control 0x8104 0).fromCpu = true ∧ s.cpuStuck = true) ∧
      decode s.cfg.variant s.pending (.write16 .control 0x8104 0) = .ok (.ctrlRw 0 1 4 0)) ∧
    (∃ s : State, s.faulted = none ∧ s.refused = none ∧ s.inbox = [.render true]) ∧
    (State.reset.faulted = none ∧ State.reset.refused = none ∧ State.reset.inbox = []) :=
  ⟨⟨{ fresh .v68k with inbox := [.op (.write16 .control 0x8104 0)] }, rfl, by decide, rfl⟩,
    ⟨{ fresh .v68k with inbox := [.render true] }, rfl, rfl, rfl⟩, rfl, rfl, rfl⟩

theorem witness_AccessesWithoutMeaningAreRefused :
    (∃ s : State, PortReady s 0 ∧ s.cfg.variant = .v68k ∧ s.m5 = false ∧
      s.inbox = [.op (.write8 .hv 1 0)]) ∧
    (∃ s : State, PortReady s 0 ∧ s.cfg.variant = .v68k ∧ s.inbox = [.op (.read8 .control 0)]) ∧
    (PortReady (fresh .vTms) 0 ∧ (fresh .vTms).cfg.variant = .vTms ∧
      (fresh .vTms).cfg.variant.isByte = true) ∧
    (∃ s : State, CpuReady s 0 ∧ s.dmaType = some .vbusToVram ∧ s.cfg.variant = .v68k ∧
      s.inbox = [.op (.write8 .control 1 0)]) :=
  ⟨⟨{ fresh .v68k with inbox := [.op (.write8 .hv 1 0)] }, by decide +kernel⟩,
    ⟨{ fresh .v68k with inbox := [.op (.read8 .control 0)] }, by decide +kernel⟩,
    by decide +kernel,
    ⟨{ busy .vbusToVram 4 with inbox := [.op (.write8 .control 1 0)] }, by decide +kernel⟩⟩

/-- The ends of the range registers 11 to 23, and both changes of Mode 5. -/
theorem witness_WriteRegisterRule :
    (((11#5 ≤ 11#5 ∧ 11#5 ≤ 23#5) ∧ ((11#5 : BitVec 5) ≤ 23#5 ∧ 23#5 ≤ 23#5)) ∧
      (fresh .v68k).m5 = false) ∧
    (¬ ((11#5 ≤ 10#5 ∧ 10#5 ≤ 23#5) ∧ (fresh .v68k).m5 = false) ∧
      ¬ ((11#5 ≤ 24#5 ∧ 24#5 ≤ 23#5) ∧ (fresh .v68k).m5 = false)) ∧
    ¬ ((11#5 ≤ 11#5 ∧ 11#5 ≤ 23#5) ∧ (md 4).m5 = false) ∧
    ((md 4).m5 = true ∧ ((md 4).setReg 1 0).m5 = false) ∧
    ((fresh .v68k).m5 = false ∧ ((fresh .v68k).setReg 1 4).m5 = true) ∧
    ((0#5 : BitVec 5) = 0#5 ∧ ((md 4).setReg 0 0).m5 = true ∧ (0#8 : Byte).getLsbD 1 = false) := by
  decide +kernel

/-- A trigger, a prefetch, neither. -/
theorem witness_CtrlA2CommitsAddress :
    (((0b1000#4 ++ (pointed 0 1 (md 0x14)).code.extractLsb' 0 2 : BitVec 6).getLsbD 5 = true ∧
      (md 0x14).dmaEn = true ∧ (md 0x14).m5 = true) ∧ PortReady (pointed 0 1 (md 0x14)) 0) ∧
    ((0b0011#4 ++ (pointed 0 0 (md 0x14)).code.extractLsb' 0 2 : BitVec 6).extractLsb' 0 4 ∈
      [0x0#4, 0x4#4, 0x8#4, 0xC#4] ∧ PortReady (pointed 0 0 (md 0x14)) 0) ∧
    ((0b0000#4 ++ (pointed 0 1 (md 0x14)).code.extractLsb' 0 2 : BitVec 6).extractLsb' 0 4 ∉
      [0x0#4, 0x4#4, 0x8#4, 0xC#4] ∧
      (0b0000#4 ++ (pointed 0 1 (md 0x14)).code.extractLsb' 0 2 : BitVec 6).getLsbD 5 = false) := by
  decide +kernel

theorem witness_TwoPhasesYieldTheAddress :
    PortReady (md 4) 0 ∧ (md 4).cfg.variant = .v68k ∧
    ((0b1000#4 ++ 0b01#2 : BitVec 6).getLsbD 5 = false ∨ (md 4).dmaEn = false) ∧
    (0b0111#4 ++ 0b11#2 : BitVec 6).getLsbD 5 = false := by decide +kernel

/-- The four values of the kind field, and a length of 0. -/
theorem witness_DmaRequestFromRegisters :
    ((withReg 23 0x3F (md 4)).rd 23).extractLsb' 6 2 = 0b00#2 ∧
    ((withReg 23 0x7F (md 4)).rd 23).extractLsb' 6 2 = 0b01#2 ∧
    ((withReg 23 0x80 (md 4)).rd 23).extractLsb' 6 2 = 0b10#2 ∧
    ((withReg 23 0xC0 (md 4)).rd 23).extractLsb' 6 2 = 0b11#2 ∧
    (md 4).rd 20 ++ (md 4).rd 19 = 0#16 := by decide +kernel

/-- ControlWritesRecomputeLatency and ControlWriteFrame, on `V68K`. -/
theorem witness_ControlWrites :
    ∀ i ∈ ([.ctrlRw 0 1 4 0, .ctrlA1 0 0 0, .ctrlA2 0 0 0 0 0] : List Instr),
      instrIsControlWrite i = true ∧ Unfrozen (md 0x14) ∧
      nextIs (exec i (md 0x14)) (fun _ => true) ∧
      (0#4 ++ (md 0x14).code.extractLsb' 0 2 : BitVec 6).getLsbD 5 = false := by decide +kernel

/-- ControlWritesRecomputeLatency and ControlWriteFrame, on the byte variants. -/
theorem witness_ControlWritesOfByteVariants :
    (∀ i ∈ ([.ctrlB1 0 0, .ctrlB2Addr 0 0 0, .ctrlB2Reg 7 0] : List Instr),
      instrIsControlWrite i = true ∧ Unfrozen (fresh .vz80Sms) ∧
      nextIs (exec i (fresh .vz80Sms)) (fun _ => true)) ∧
    (∀ i ∈ ([.ctrlB1 0 0, .ctrlT2Addr 1 0 0, .ctrlT2Reg 0 7 0] : List Instr),
      instrIsControlWrite i = true ∧ Unfrozen (fresh .vTms) ∧
      nextIs (exec i (fresh .vTms)) (fun _ => true)) := by decide +kernel

/-- ByteAddressSequence and TmsSecondByte: both codes, and both states of the big VRAM bit. -/
theorem witness_ByteAndTmsAddresses :
    ((0b01#2 : BitVec 2) ≠ 0b00#2 ∧ (0b00#2 : BitVec 2) = 0b00#2) ∧
    ((withReg 1 0x80 (fresh .vTms)).rd 1).getLsbD 7 = true ∧
    ((fresh .vTms).rd 1).getLsbD 7 = false := by decide +kernel

theorem witness_FrozenCpuMayOnlyDefer :
    CpuReady (busy .vbusToVram 4) 0 ∧ (busy .vbusToVram 4).dmaType = some .vbusToVram ∧
    (busy .vbusToVram 4).deferredCtrl = none ∧ instrIsControlWrite (.ctrlRw 0 15 4 0) = true ∧
    instrTime (.ctrlRw 0 15 4 0) = 0 ∧
    (CpuReady { busy .vbusToVram 4 with deferredCtrl := some 0 } 0 ∧
      ({ busy .vbusToVram 4 with deferredCtrl := some 0 } : State).deferredCtrl ≠ none) ∧
    (instrFromCpu (.dataR16 0) = true ∧ instrIsControlWrite (.dataR16 0) = false) := by
  decide +kernel

/-- DataW16WritesThroughTheBus and FifthWriteStallsOneLatency; DataWriteStartsArmedFill, both clauses. -/
theorem witness_DataW16 :
    (PortReady (md 0x44) 0 ∧ (md 0x44).m5 = true ∧ (md 0x44).fillArmed = false ∧
      (md 0x44).status.getLsbD 3 = false ∧ (md 0x44).dispEn = true ∧ (md 0x44).fifoCount = 0) ∧
    (PortReady { busy .vramFill 4 with fillArmed := true } 0 ∧
      ({ busy .vramFill 4 with fillArmed := true } : State).code.extractLsb' 0 4 = 0x1#4 ∧
      (pointed 0 0x23 (md 4)).code.extractLsb' 0 4 ≠ 0x1#4) := by decide +kernel

/-- Each branch of the FIFO's rules, at its boundary. -/
theorem witness_FifoUpdateAndCharge :
    (fresh .v68k).m5 = false ∧ (md 0x44).fifoCount = 0 ∧
    ({ md 0x44 with fifoCount := 4, fifoLastWrite := 9 } : State).fifoLastWrite < 10 ∧
    ({ md 0x44 with status := 8 } : State).status.getLsbD 3 = true ∧ (md 4).dispEn = false ∧
    (State.fifoUpdate 9 { md 0x44 with fifoCount := 3, fifoLastWrite := 9 }).fifoCount < 4 ∧
    ¬ (State.fifoUpdate 9 { md 0x44 with fifoCount := 4, fifoLastWrite := 9 }).fifoCount < 4 ∧
    ({ md 0x44 with fifoCount := 4 } : State).status.getLsbD 3 = false ∧
    (md 0x44).dispEn = true := by decide +kernel

/-- BusWriteChangesOnlyItsTarget: each target, a code with none, the backdrop's entry and another. -/
theorem witness_BusWriteChangesOnlyItsTarget :
    (pointed 0 0x21 (md 4)).code.extractLsb' 0 4 = 0x1#4 ∧
    (pointed 0 0x02 (md 4)).code.extractLsb' 0 4 ≠ 0x1#4 ∧
    ((pointed 0 0x03 (md 4)).code.extractLsb' 0 4 = 0x3#4 ∧
      (pointed 0 0x03 (md 4)).addr.extractLsb' 1 6 = (md 4).backdropIdx ∧
      (pointed 2 0x03 (md 4)).addr.extractLsb' 1 6 ≠ (md 4).backdropIdx) ∧
    (pointed 0 0x05 (md 4)).code.extractLsb' 0 4 = 0x5#4 := by decide +kernel

/-- ByteDataWrites, each clause. -/
theorem witness_ByteDataWrites :
    (fresh .vTms).cfg.variant = .vTms ∧
    (pointed 0 1 (fresh .vz80Sms)).code.extractLsb' 0 2 ≠ 0b11#2 ∧
    ((fresh .vz80Md4).cfg.variant = .vz80Md4 ∧
      (pointed 0 3 (fresh .vz80Md4)).code.extractLsb' 0 2 = 0b11#2) ∧
    ((fresh .vz80Gg).cfg.variant = .vz80Gg ∧
      (pointed 4 3 (fresh .vz80Gg)).code.extractLsb' 0 2 = 0b11#2 ∧
      (pointed 4 3 (fresh .vz80Gg)).addr.getLsbD 0 = false ∧
      (pointed 5 3 (fresh .vz80Gg)).addr.getLsbD 0 = true) := by decide +kernel

/-- DataR16IsBuffered and ReadTargetValues at every read code; InvalidReadDrawsOrSticks at another. -/
theorem witness_DataReads :
    (∀ c ∈ [0x0#6, 0x4#6, 0x8#6, 0xC#6],
      PortReady (pointed 0 c (md 4)) 0 ∧ (pointed 0 c (md 4)).m5 = true ∧
      (pointed 0 c (md 4)).code.extractLsb' 0 4 ∈ [0x0#4, 0x4#4, 0x8#4, 0xC#4]) ∧
    (instrFromCpu (.ctrlA2 0 1 0 0 0) = true ∧ (fresh .v68k).m5 = false ∧
      nextIs (exec (.ctrlA2 0 1 0 0 0) (fresh .v68k)) (fun n => decide (n.addr = 1)) ∧
      nextIs (exec (.ctrlR16 0) { fresh .v68k with vsram := [(0, 1)] }) (fun _ => true)) ∧
    ((pointed 0 4 (fresh .v68k)).m5 = false ∧
      (pointed 0 4 (fresh .v68k)).code.extractLsb' 0 4 = 0x4#4) ∧
    (PortReady (pointed 0 1 (md 4)) 0 ∧
      (pointed 0 1 (md 4)).code.extractLsb' 0 4 ∉ [0x0#4, 0x4#4, 0x8#4, 0xC#4]) := by
  decide +kernel

theorem witness_ReadFrame :
    (∀ i ∈ ([.dataR16 0, .ctrlR16 0, .hvR16 0] : List Instr),
      nextIs (exec i (md 4)) (fun _ => true)) ∧
    (∀ i ∈ ([.dataR8 0, .ctrlR8 0, .vR8 0, .hR8 0] : List Instr),
      nextIs (exec i (fresh .vz80Sms)) (fun _ => true)) := by decide +kernel

/-- Completed operations for the statements on every operation that gives a next state. -/
theorem witness_OnlyRasterSetsTimingBits :
    nextIs (exec (.dataW16 1 0) (md 4)) (fun _ => true) ∧ instrFromCpu (.dataW16 1 0) = true ∧
    nextIs (exec (.advance 0) (busy .vramFill 4)) (fun _ => true) ∧
    instrFromCpu (.advance 0) = false := by decide +kernel

theorem witness_CounterReads :
    ((md 4).hvLatch = none ∧ (md 4).m5 = true) ∧
    ({ md 4 with hvLatch := some 1 } : State).hvLatch = some 1 ∧
    (({ fresh .v68k with hvLatch := some 1 } : State).hvLatch = some 1 ∧
      (fresh .v68k).m5 = false) ∧
    ((fresh .vz80Gg).cfg.variant.isZ80 = true ∧ (fresh .vz80Gg).hvLatch = none) ∧
    (fresh .vTms).cfg.variant = .vTms := by decide +kernel

theorem witness_LatchHvFreezesLivePair :
    HostReady (fresh .v68k) 0 ∧ (fresh .v68k).m5 = false ∧
    ((withReg 0 2 (md 4)).rd 0).getLsbD 1 = true ∧
    ((md 4).m5 = true ∧ ((md 4).rd 0).getLsbD 1 = false) := by decide +kernel

/-- The lines on both sides of the jump. -/
theorem witness_VerticalByteOverAFrame :
    0 < (md 4).cfg.cyclesPerLine ∧ (md 4).cfg.linesPerFrame = 262 ∧
    vcMax (md 4).cfg (md 4).renderMode (md 4).displayLines = 0xEA ∧
    (md 4).lsm.getLsbD 0 = false ∧
    ((withReg 12 2 (md 4)).lsm = 0b01#2 ∧ (withReg 12 6 (md 4)).lsm = 0b11#2 ∧
      vcMax (md 4).cfg (withReg 12 6 (md 4)).renderMode (withReg 12 6 (md 4)).displayLines = 0xEA) ∧
    (vcMax { tp .v68k with linesPerFrame := 313, vcMax := [((.tms, .lines192), 0xF2)] } .tms
      .lines192 = 0xF2 ∧ (312 + 313 - 1) % 313 = 311 ∧ 0xF2 < 311) ∧
    0 % (3420 * 262) / 3420 = 0 ∧ 803700 % (3420 * 262) / 3420 = 235 ∧
    807120 % (3420 * 262) / 3420 = 236 := by decide +kernel

theorem witness_AdvanceRunsOneStep :
    HostReady (md 4) 0 ∧ (md 4).dmaType = none ∧
    ({ busy .vramFill 4 with fillArmed := true } : State).dmaType ≠ none ∧
    ({ busy .vramFill 4 with fillArmed := true } : State).fillArmed = true ∧
    HostReady (busy .vramCopy 4) 0 ∧ (busy .vramCopy 4).dmaType ≠ none ∧
    (busy .vramCopy 4).fillArmed = false := by decide +kernel

/-- Steps that complete and that do not, of a freezing and of a concurrent kind. -/
theorem witness_DmaStepAccounting :
    ((busy .vbusToVram 9).deferredCtrl = none ∧
    ((busy .vbusToVram 9).stepUnits 0 = 8 ∧ (busy .vbusToVram 8).stepUnits 0 = 8) ∧
    ((busy .vramFill 17).stepUnits 0 = 16 ∧ (busy .vramFill 15).stepUnits 0 = 15) ∧
    (busy .vramFill 15).cfg.dmaSourceWriteback = false ∧
    (busy .vramFill 15).cfg.vblankByFrame = true ∧
    HostReady (busy .vbusToVram 8) 0 ∧
    ({ busy .vbusToVram 8 with deferredCtrl := some 0x8F04 } : State).deferredCtrl = some 0x8F04) ∧
    decode .v68k (busy .vbusToVram 8).pending (.write16 .control 0x8F04 3420) =
      .ok (.ctrlRw 0 15 4 3420) := ⟨by decide +kernel, rfl⟩

/-- FillWritesItsAddresses and DmaUnitsMoveTheirCursors. -/
theorem witness_DmaUnits :
    (busy .vramFill 4).dmaType = some .vramFill ∧ (busy .vramCopy 4).dmaType = some .vramCopy ∧
    (busy .vbusToVram 4).dmaType = some .vbusToVram ∧
    (busy .vramCopy 4).dmaSource.toNat < 65536 ∧
    (∀ k, k < 2 → (5 : Nat) / 2 ≠
      ((busy .vramFill 4).addr + BitVec.ofNat 16 (k * (busy .vramFill 4).inc.toNat)).toNat / 2) ∧
    (∀ k, k < 2 → (5 : Nat) ≠
      (((busy .vramFill 4).addr + BitVec.ofNat 16 (k * (busy .vramFill 4).inc.toNat)) ^^^
        1#16).toNat) := by decide +kernel

/-- Twenty words at eight a line take three lines. -/
theorem witness_LineByLineDmaEnds :
    (busy .vbusToVram 20).cfg.ok = true ∧ HostReady (busy .vbusToVram 20) 3420 ∧
    (busy .vbusToVram 20).dmaType ≠ none ∧ (busy .vbusToVram 20).fillArmed = false ∧
    (busy .vbusToVram 20).deferredCtrl = none ∧
    (busy .vbusToVram 20).status.getLsbD 3 = false ∧
    3420 % (busy .vbusToVram 20).cfg.cyclesPerLine = 0 ∧
    (3 - 1) * (busy .vbusToVram 20).dmaRateNow < (busy .vbusToVram 20).dmaRemaining ∧
    (busy .vbusToVram 20).dmaRemaining ≤ 3 * (busy .vbusToVram 20).dmaRateNow := by
  decide +kernel

/-- SaveStateOperations, at the last byte of the range, and SnapshotRoundTrip. -/
theorem witness_SaveState :
    HostReady (fresh .v68k) 0 ∧ (md 4).capture.form = true ∧
    (0 < (md 4).satRange.2 ∧ (md 4).satRange.1.toNat + 511 < 65536) ∧
    (fresh .v68k).cfg = (md 4).cfg ∧ (fresh .v68k).cpuStuck = false ∧
    (md 4).faulted = none ∧ (md 4).refused = none ∧ (md 4).cpuStuck = false ∧
    (md 4).fifoLatency = (md 4).latencyNow := by decide +kernel

theorem witness_TimeNeverRunsBack :
    ({ md 4 with lastT := 5 } : State).faulted = none ∧
    ({ md 4 with lastT := 5 } : State).refused = none ∧ instrTime (.reset 4) < 5 ∧
    instrTime (.dataR16 4) < 5 ∧ (md 4).cpuStuck = false ∧
    nextIs (exec (.reset 5) { md 4 with lastT := 5 }) (fun _ => true) := by decide +kernel

theorem witness_MarkedRunsStop :
    faultIs (exec (.advance 0) (md 4)) .advanceWithoutDma ∧
    refusedIs (exec (.dataR16 0) (fresh .v68k)) .data68KMode4 ∧
    (({ md 4 with faulted := some .timeReversal, inbox := [.render true] } : State).faulted =
      some .timeReversal) ∧
    (({ md 4 with refused := some .fillNonVram } : State).faulted = none ∧
      ({ md 4 with refused := some .fillNonVram } : State).refused = some .fillNonVram) ∧
    (({ md 4 with cpuStuck := true } : State).cpuStuck = true ∧
      instrFromCpu (.dataR16 0) = true ∧ (Access.read16 .data 0).fromCpu = true) ∧
    (instrFromCpu (.advance 0) = false ∧
      nextIs (exec (.advance 0) (busy .vramCopy 4)) (fun _ => true)) := by decide +kernel

/-- StepKeepsBanks, StepKeepsFifo, StepKeepsDma, StepKeepsByteVariants, StepKeepsCaches and
StepKeepsConfigAndStatus: a state with every invariant whose step runs an operation. -/
theorem witness_StepKeeps :
    ∃ s : State, BankForm s ∧ StatusForm s ∧ Kept FifoForm s ∧ Kept DmaForm s ∧ Kept ByteForm s ∧
      CacheForm s ∧ nextIs (step s) (fun _ => true) = true := by
  refine ⟨{ md 0x54 with inbox := [.op (.write16 .control 0x4100 0)] }, ?_, ?_, ⟨?_, ?_⟩, ⟨?_, ?_⟩,
    ⟨?_, ?_⟩, ?_, ?_⟩
  · decide +kernel
  · decide +kernel
  · decide +kernel
  · intro x t h; simp at h
  · decide +kernel
  · intro x t h; simp at h
  · intro h; exact absurd h (by decide +kernel)
  · intro x t h; simp at h
  · decide +kernel
  · decide +kernel

/-- The same on a byte variant, with a snapshot of the same configuration still to be restored. -/
theorem witness_StepKeepsByteVariants :
    ∃ s : State, s.cfg.variant.isByte = true ∧ Kept ByteForm s ∧
      (∃ x t, Event.op (.deserialize x t) ∈ s.inbox) ∧
      nextIs (step s) (fun _ => true) = true := by
  have hr : ∀ i : BitVec 5, (fresh .vz80Sms).rd i = 0#8 := by decide +kernel
  have hf : ByteForm (fresh .vz80Sms) := fun _ =>
    ⟨by decide +kernel, by decide +kernel, by decide +kernel, rfl, rfl, fun i _ _ => hr i, rfl⟩
  refine ⟨{ fresh .vz80Sms with
    inbox := [.op (.write8 .control 0x34 0), .op (.deserialize (fresh .vz80Sms).capture 0)] },
    rfl, ⟨hf, ?_⟩, ⟨(fresh .vz80Sms).capture, 0, by simp⟩, by decide +kernel⟩
  intro x t h
  simp at h
  obtain ⟨rfl, rfl⟩ := h
  have hx : ∀ i : BitVec 5,
      ((State.create (tp .vz80Sms)).restore (fresh .vz80Sms).capture).rd i = 0#8 := by decide +kernel
  exact fun _ => ⟨by decide +kernel, by decide +kernel, by decide +kernel, by decide +kernel,
    by decide +kernel, fun i _ _ => hx i, by decide +kernel⟩

end Sys2Proof.Tests
end

section
/-! Proofs, the register file and the bits of the status word: what `writeRegister` does as one record, which
registers a completed DMA writes, the named fields on the register bits, and the composed status. -/

namespace Sys2Proof

theorem Variant.isWord_eq (v : Variant) : v.isWord = decide (v = .v68k) := by cases v <;> rfl

theorem Variant.isTms_eq (v : Variant) : v.isTms = decide (v = .vTms) := by cases v <;> rfl

theorem Variant.isByte_eq (v : Variant) : v.isByte = !v.isWord := by cases v <;> rfl

theorem Variant.isZ80_eq (v : Variant) : v.isZ80 = (v.isByte && !v.isTms) := by cases v <;> rfl

theorem Variant.isByte_of_isWord {v : Variant} (h : v.isWord = true) : v.isByte = false := by
  simp [Variant.isByte_eq, h]

end Sys2Proof

namespace Sys2Proof.Machine

/-! ### The register file's one writer (R140 to R143) -/

theorem State.regIgnored_iff (s : State) (i : BitVec 5) :
    s.regIgnored i = true ↔ (11#5 ≤ i ∧ i ≤ 23#5) ∧ s.m5 = false := by
  simp [State.regIgnored]

theorem State.writeRegister_of_ignored {s : State} {i : BitVec 5} (d : Byte) (t : Nat)
    (h : s.regIgnored i = true) : s.writeRegister i d t = s := by
  simp [State.writeRegister, h]

/-- Releasing the latch as one record (R142). -/
theorem State.releaseHv_eq (i : BitVec 5) (d : Byte) (s : State) :
    s.releaseHv i d =
      { s with hvLatch := if i = 0#5 ∧ s.m5 = true ∧ d.getLsbD 1 = false then none else s.hvLatch } := by
  unfold State.releaseHv
  split <;> rfl

/-- A change of Mode 5 as one record (R143). -/
theorem State.fifoOnMode_eq (old : Bool) (t : Nat) (s : State) :
    s.fifoOnMode old t =
      { s with
        fifoCount := if old = true ∧ s.m5 = false then 0 else s.fifoCount
        fifoLastWrite := if old = false ∧ s.m5 = true then t else s.fifoLastWrite } := by
  unfold State.fifoOnMode
  cases old <;> cases s.m5 <;> rfl

/-- A register write that is not ignored as one record (R140). -/
theorem State.writeRegister_of_not_ignored {s : State} {i : BitVec 5} (d : Byte) (t : Nat)
    (h : ¬ s.regIgnored i = true) :
    s.writeRegister i d t =
      { s with
        reg := (s.setReg i d).reg
        renderMode := (s.setReg i d).renderModeNow
        displayLines := (s.setReg i d).displayLinesNow
        backdropColor := (s.setReg i d).backdropNow
        hvLatch := if i = 0#5 ∧ (s.setReg i d).m5 = true ∧ d.getLsbD 1 = false then none
          else s.hvLatch
        fifoCount := if s.m5 = true ∧ (s.setReg i d).m5 = false then 0 else s.fifoCount
        fifoLastWrite := if s.m5 = false ∧ (s.setReg i d).m5 = true then t
          else s.fifoLastWrite } := by
  simp only [State.writeRegister, h, Bool.false_eq_true, if_false, State.fifoOnMode_eq,
    State.recomputeDerived_m5, State.releaseHv_eq]
  rfl

/-- A register read after a register write that is not ignored (R140). -/
theorem State.rd_writeRegister {s : State} {i : BitVec 5} (d : Byte) (t : Nat) (j : BitVec 5)
    (h : ¬ s.regIgnored i = true) :
    (s.writeRegister i d t).rd j = if j = i then d else s.rd j := by
  rw [State.writeRegister_of_not_ignored d t h, ← State.rd_setReg]
  exact State.rd_congr rfl j

/-! ### The registers a completed DMA writes: 19 to 22 (R273, R274) -/

theorem State.sourceWriteback_rd (s : State) {j : BitVec 5} (h21 : j ≠ 21#5) (h22 : j ≠ 22#5) :
    s.sourceWriteback.rd j = s.rd j := by
  unfold State.sourceWriteback
  split <;> simp [State.rd_setReg, h21, h22]

theorem State.dmaFinish_rd (s : State) {j : BitVec 5} (h : j < 19#5 ∨ 22#5 < j) :
    s.dmaFinish.rd j = s.rd j := by
  obtain ⟨h19, h20, h21, h22⟩ : j ≠ 19#5 ∧ j ≠ 20#5 ∧ j ≠ 21#5 ∧ j ≠ 22#5 := by
    refine ⟨?_, ?_, ?_, ?_⟩ <;> rintro rfl <;> revert h <;> decide
  have hw : s.clearLength.rd j = s.rd j := by simp [State.clearLength, State.rd_setReg, h19, h20]
  have hf : s.dmaFinish.rd j = s.clearLength.writebackIf.rd j := rfl
  rw [hf, State.writebackIf]
  split
  · rw [State.sourceWriteback_rd _ h21 h22, hw]
  · exact hw

@[simp] theorem State.dmaFinish_m5 (s : State) : s.dmaFinish.m5 = s.m5 := by
  simp [State.m5, State.dmaFinish_rd]

@[simp] theorem State.dmaFinish_h40 (s : State) : s.dmaFinish.h40 = s.h40 := by
  simp [State.h40, State.dmaFinish_rd]

@[simp] theorem State.dmaFinish_backdropIdx (s : State) :
    s.dmaFinish.backdropIdx = s.backdropIdx := by
  simp [State.backdropIdx, State.dmaFinish_rd]

@[simp] theorem State.dmaFinish_renderModeNow (s : State) :
    s.dmaFinish.renderModeNow = s.renderModeNow := by
  simp [State.renderModeNow, State.im2, State.lsm, State.m4sel, State.dmaFinish_rd]

@[simp] theorem State.dmaFinish_displayLinesNow (s : State) :
    s.dmaFinish.displayLinesNow = s.displayLinesNow := by
  simp [State.displayLinesNow, State.v30, State.m1, State.m2, State.m3, State.dmaFinish_rd]

/-! ### The named fields on the bits of the registers (R29, R42) -/

/-- A byte variant has no Mode 5 (R29). -/
theorem State.m5_of_isByte {s : State} (h : s.cfg.variant.isByte = true) : s.m5 = false := by
  rw [Variant.isByte_eq] at h
  simp_all [State.m5]

/-- Mode 5 is the word variant's (R29). -/
theorem State.isByte_of_m5 {s : State} (h : s.m5 = true) : s.cfg.variant.isByte = false := by
  cases hb : s.cfg.variant.isByte
  · rfl
  · simp [State.m5_of_isByte hb] at h

/-- The Mode 4 backdrop index is `0b01` above the register's low four bits (R29). -/
theorem backdropIdx_mode4 (r : Byte) :
    0x10#6 ||| (r.extractLsb' 0 4).setWidth 6 = 0b01#2 ++ r.extractLsb' 0 4 := by
  revert r; decide

/-- The two top bits of register 23 as R263 reads them. -/
theorem dmaKind_bits (r : Byte) :
    (if r.getLsbD 7 then if r.getLsbD 6 then DmaKind.vramCopy else .vramFill else .vbusToVram) =
      if r.extractLsb' 6 2 = 0b10#2 then .vramFill
      else if r.extractLsb' 6 2 = 0b11#2 then .vramCopy else .vbusToVram := by
  revert r; decide

/-! ### The bits of the status word (R33, R47, R279) -/

/-- A bit of a Boolean times a mask. -/
theorem getLsbD_flag (b : Bool) (w : Word) (k : Nat) : (flag b w).getLsbD k = (b && w.getLsbD k) := by
  cases b <;> simp [flag]

/-- A busy update as one record: the status word, bit 1 cleared or not (R279). -/
theorem State.dmaBusyUpdate_status (s : State) (t : Nat) :
    (s.dmaBusyUpdate t).status =
      if s.dmaBusy = true ∧ s.dmaType = none ∧ s.dmaEndCycles ≤ t then s.status &&& 0xFFFD#16
      else s.status := by
  unfold State.dmaBusyUpdate
  split <;> rfl

theorem State.dmaBusyUpdate_eq (s : State) (t : Nat) :
    s.dmaBusyUpdate t = { s with status := (s.dmaBusyUpdate t).status } := by
  unfold State.dmaBusyUpdate
  split <;> rfl

/-- The mask `0xFFFD` clears bit 1 and no other of a word. -/
theorem getLsbD_clear_busy (w : Word) (k : Nat) :
    (w &&& 0xFFFD#16).getLsbD k = (w.getLsbD k && decide (k ≠ 1)) := by
  by_cases hk : k < 16
  · rw [BitVec.getLsbD_and]
    interval_cases k <;> simp
  · rw [BitVec.getLsbD_of_ge _ k (by omega), BitVec.getLsbD_of_ge w k (by omega), Bool.false_and]

/-- The bits of the composed status value: each of its four parts under its mask (R47). -/
theorem State.getLsbD_statusValue (s : State) (k : Nat) :
    s.statusValue.getLsbD k =
      (s.status.getLsbD k && (0x00FE#16).getLsbD k || s.cfg.pal && (0x0001#16).getLsbD k ||
        s.fifoFull && (0x0100#16).getLsbD k || s.fifoEmpty && (0x0200#16).getLsbD k) := by
  simp only [State.statusValue, BitVec.getLsbD_or, BitVec.getLsbD_and, getLsbD_flag]

/-! ### What `create` leaves (R44) -/

theorem State.create_rd (c : Config) (i : BitVec 5) : (State.create c).rd i = 0#8 := by
  simp [State.rd, State.create]

@[simp] theorem State.create_m5 (c : Config) : (State.create c).m5 = false := by
  simp [State.m5, State.create_rd]

/-- The caches `create` sets are those of cleared registers and CRAM (R42 to R44). -/
theorem cacheForm_create (c : Config) : CacheForm (State.create c) := by
  have hm : (State.create c).renderModeNow = .tms := by
    simp [State.renderModeNow, State.m4sel, State.create_rd]
  have hl : (State.create c).displayLinesNow = .lines192 := by
    simp [State.displayLinesNow, hm]
  exact ⟨hm.symm, hl.symm, by simp [State.backdropNow, cramEntry, State.create]⟩

/-! ### The statements on registers, status and reset -/

/-- Settles O14: the record `writeRegister` leaves, and the named fields read off the bits of the registers. -/
theorem writeRegisterRule : Obligations.WriteRegisterRule := by
  refine ⟨?_, ?_⟩
  · rintro s i d t n rfl
    refine ⟨fun h => State.writeRegister_of_ignored d t ((s.regIgnored_iff i).mpr h), fun h => ?_⟩
    have hi : ¬ s.regIgnored i = true := fun hi => h ((s.regIgnored_iff i).mp hi)
    refine ⟨?_, fun j hj => ?_, State.writeRegister_of_not_ignored d t hi⟩
    · simp [State.rd_writeRegister d t _ hi]
    · simp [State.rd_writeRegister d t _ hi, hj]
  · rintro s mode5 mode4 h5 h4
    have hm5 : s.m5 = mode5 := by rw [h5, State.m5, Variant.isWord_eq]
    have hm4 : mode4 = (!mode5 && !s.cfg.variant.isTms && s.m4sel) := by
      rw [h4, Variant.isTms_eq, State.m4sel]
    have hidx : s.backdropIdx =
        if mode5 then (s.rd 7).extractLsb' 0 6 else 0b01#2 ++ (s.rd 7).extractLsb' 0 4 := by
      rw [State.backdropIdx, hm5, backdropIdx_mode4]
    have hmode : s.renderModeNow =
        if mode5 then
          if (s.rd 12).extractLsb' 1 2 = 0b11#2 then .mode5Interlaced else .mode5Progressive
        else if mode4 then .mode4 else .tms := by
      rw [hm4]
      cases mode5 <;> simp [State.renderModeNow, State.im2, State.lsm, hm5]
    have hlines : s.displayLinesNow =
        if mode5 then if (s.rd 1).getLsbD 3 then .lines240 else .lines224
        else if mode4 && (s.rd 0).getLsbD 1 && (s.rd 1).getLsbD 4 && !(s.rd 1).getLsbD 3 then .lines224
        else if mode4 && (s.rd 0).getLsbD 1 && (s.rd 1).getLsbD 3 && !(s.rd 1).getLsbD 4 then .lines240
        else .lines192 := by
      unfold State.displayLinesNow State.v30 State.m2 State.m1 State.m3
      rw [hm5, hmode]
      cases mode5 <;> cases mode4 <;> simp [and_assoc]
    refine ⟨hm5, rfl, ?_, ?_, ?_, ?_, ?_, ?_, rfl, ?_, rfl, hidx, ?_, ?_, ?_, rfl, rfl, rfl,
      dmaKind_bits _, hmode, hlines, by rw [State.backdropNow, hidx]⟩
    · rw [State.m2, hm5]
    · rw [State.m1, hm5]
    · rw [State.m3, hm5]
    · rw [State.hvLatchEn, hm5]
    · rw [State.v30, hm5]
    · rw [State.dmaEn, hm5]
    · rw [State.bigVram, Variant.isTms_eq]
    · rw [State.h40, hm5]
    · rw [State.lsm, hm5]
    · rw [State.inc, hm5]

/-- Settles O39: each bit falls under one of the composed parts' masks, and the busy update's mask is bit 1. -/
theorem statusValueAndBusyUpdate : Obligations.StatusValueAndBusyUpdate := by
  intro s t
  refine ⟨⟨?_, fun k h1 h7 => ?_, ?_, ?_, fun k hk => ?_⟩, ?_, fun k hk => ?_, s.dmaBusyUpdate_eq t⟩
  · rw [State.getLsbD_statusValue]
    simp
  · rw [State.getLsbD_statusValue]
    interval_cases k <;> simp
  · rw [State.getLsbD_statusValue]
    simp [State.fifoFull]
  · rw [State.getLsbD_statusValue]
    simp [State.fifoEmpty]
  · by_cases h16 : k < 16
    · rw [State.getLsbD_statusValue]
      interval_cases k <;> simp
    · exact BitVec.getLsbD_of_ge _ k (by omega)
  · rw [State.dmaBusyUpdate_status, State.dmaBusy]
    split
    · rename_i hc
      rw [getLsbD_clear_busy]
      simp [hc.2]
    · rename_i hc
      cases hb : s.status.getLsbD 1
      · rfl
      · have hn : ¬ (s.dmaType = none ∧ s.dmaEndCycles ≤ t) := fun h => hc ⟨hb, h⟩
        rw [← Bool.decide_and, decide_eq_false hn]
        rfl
  · rw [State.dmaBusyUpdate_status]
    split
    · rw [getLsbD_clear_busy, decide_eq_true hk, Bool.and_true]
    · rfl

/-- Settles O1: every field by its value in `create`, the caches by `cacheForm_create`. -/
theorem createGivesResetValues : Obligations.CreateGivesResetValues := by
  rintro c s rfl
  exact ⟨State.create_rd c, rfl, rfl, rfl, rfl, rfl, rfl, rfl, rfl, rfl, rfl, rfl, rfl, rfl,
    fun _ => rfl, fun _ => rfl, fun _ => rfl, fun _ => rfl, rfl, rfl, rfl, rfl, cacheForm_create c⟩

end Sys2Proof.Machine
end

section
/-! Proofs, what an operation can do: the inversion of the decoder and of `exec`, said once, and the package
"a predicate that every update keeps, every step keeps", of which the invariants are instances. -/

namespace Sys2Proof

/-- Only a snapshot in form is decoded, from the access that carries it (R303; log entry 16). -/
theorem decode_eq_deserialize {v : Variant} {pending : Bool} {a : Access} {x : Snapshot} {t : Nat}
    (h : decode v pending a = .ok (.deserialize x t)) : a = .deserialize x t ∧ x.form = true := by
  cases a with
  | write16 p w u =>
    cases p <;> simp only [decode, decodeWrite16, decodeControl16] at h <;>
      (repeat' split at h) <;> simp at h
  | write8 p b u =>
    cases p <;> simp only [decode, decodeWrite8, decodeControl8] at h <;>
      (repeat' split at h) <;> simp at h
  | read16 p u => cases p <;> simp only [decode, decodeRead16] at h <;> split at h <;> simp at h
  | read8 p u => cases p <;> simp only [decode, decodeRead8] at h <;> split at h <;> simp at h
  | deserialize y u =>
    simp only [decode] at h
    split at h
    · rename_i hf
      cases h
      exact ⟨rfl, hf⟩
    · cases h
  | advance u => cases h
  | latchHv u => cases h
  | raster sm cm u => cases h
  | reset u => cases h
  | serialize u => cases h

/-- A control word is an operation of the word variant (R101 to R103). -/
theorem decodeControl16_on (pending : Bool) (w : Word) (t : Nat) {v : Variant}
    (hv : v.isWord = true) : (decodeControl16 pending w t).on v = true := by
  unfold decodeControl16
  split
  · exact hv
  · split <;> exact hv

/-- A control byte is an operation of the byte variant it is decoded for (R104 to R106). -/
theorem decodeControl8_on (pending : Bool) (b : Byte) (t : Nat) {v : Variant}
    (hv : v.isByte = true) : (decodeControl8 v pending b t).on v = true := by
  unfold decodeControl8
  split
  · split
    · rename_i ht
      split <;> exact ht
    · rename_i ht
      have hz : v.isZ80 = true := by simp [Variant.isZ80_eq, hv, ht]
      split <;> exact hz
  · exact hv

end Sys2Proof

namespace Sys2Proof.Machine

/-- A deferred write is replayed as an operation of the block's own variant (R130, R282). -/
theorem State.decodeDeferred_on (s : State) (v : Word) (t : Nat) :
    (s.decodeDeferred v t).on s.cfg.variant = true := by
  unfold State.decodeDeferred
  split
  · rename_i hw
    exact decodeControl16_on _ _ _ hw
  · rename_i hw
    exact decodeControl8_on _ _ _ (by simp [Variant.isByte_eq, hw])

/-! ### What an operation can do -/

/-- The work of an operation that gave a next state, from the state with the timestamp kept to the state
whose output is still to be set: one case for each way an operation goes on. -/
inductive Works : Instr → State → State → Prop where
  /-- A control write to a frozen block is kept undecoded (R281). -/
  | deferred {i s} : instrIsControlWrite i = true → s.dmaType = some .vbusToVram →
      s.deferredCtrl = none → Works i s { s with deferredCtrl := some (instrWord i) }
  /-- A control write runs, then the FIFO latency is recomputed (R130, R134). -/
  | control {i s} : instrIsControlWrite i = true → Unfrozen s → i.on s.cfg.variant = true →
      Works i s (controlEffect State.dmaStep i s).1.relatch
  | dataW16 {w t s} : s.m5 = true → Works (.dataW16 w t) s (s.dataWrite16 w t).1
  | dataW8 {v t s} : s.cfg.variant.isByte = true → Works (.dataW8 v t) s (s.dataWrite8 v)
  /-- An invalid read leaves the CPU stuck (R196). -/
  | stuck {t s} : s.m5 = true → s.targetSticks = true →
      Works (.dataR16 t) s { s.drawn with pending := false, cpuStuck := true }
  | dataR16 {t s} : s.m5 = true → s.targetSticks = false →
      Works (.dataR16 t) s (State.refill16 { s with pending := false })
  | dataR8 {t s} : s.cfg.variant.isByte = true →
      Works (.dataR8 t) s (State.refill8 { s with pending := false })
  | ctrlR16 {t s} : Works (.ctrlR16 t) s (s.statusUpdate t).statusClear.drawn
  | ctrlR8 {t s} : Works (.ctrlR8 t) s (s.statusUpdate t).statusClear.drawn
  | hvR16 {t s} : Works (.hvR16 t) s s
  | vR8 {t s} : s.cfg.variant.isTms = false → Works (.vR8 t) s s
  | hR8 {t s} : s.cfg.variant.isTms = false → Works (.hR8 t) s s
  | serialize {t s} : Works (.serialize t) s s
  /-- An armed fill waits for its byte (R283). -/
  | armed {t s} : s.dmaType ≠ none → s.fillArmed = true → Works (.advance t) s s
  | advance {t s} : s.dmaType ≠ none → s.fillArmed = false → Works (.advance t) s (s.dmaStep t).1
  /-- The external latch input is ignored while Mode 5 disables it (R225). -/
  | latchShut {t s} : s.latchOpen = false → Works (.latchHv t) s s
  | latchHv {t s} : s.latchOpen = true →
      Works (.latchHv t) s { s with hvLatch := some (s.hvLive t) }
  | raster {a b t s} : Works (.raster a b t) s { s with status := rasterStatus a b s.status }
  | reset {t s} : Works (.reset t) s s.resetBlock
  | deserialize {x t s} : Works (.deserialize x t) s (s.restore x)

/-- What a control write that gave a next state did, from its effect. -/
theorem works_of_controlWrite {i : Instr} {t : Nat} {s n : State} {eff : State → State × Nat}
    (hc : instrIsControlWrite i = true)
    (he : ∀ u, (eff u).1 = (controlEffect State.dmaStep i u).1)
    (h : controlWrite i.on (instrWord i) t eff s = .next n) :
    ∃ u o, n = { u with out := o } ∧ Works i { s with lastT := t } u := by
  obtain ⟨-, ⟨hd, hn, rfl⟩ | ⟨hu, hv, rfl⟩⟩ := controlWrite_eq_next h
  · exact ⟨_, _, rfl, .deferred hc hd hn⟩
  · refine ⟨_, _, rfl, ?_⟩
    rw [he]
    exact .control hc hu hv

/-- A port access that gave a next state gave it from the state with the timestamp kept. -/
theorem portAccess_andThen {ok : Variant → Bool} {t : Nat} {s n : State} {k : State → Res}
    (h : andThen (portAccess ok t s) k = .next n) :
    k { s with lastT := t } = .next n ∧ ok s.cfg.variant = true := by
  obtain ⟨s1, hp, hk⟩ := andThen_eq_next h
  obtain ⟨rfl, -, hv⟩ := portAccess_eq_next hp
  exact ⟨hk, hv⟩

/-- A host operation that gave a next state gave it from the state with the timestamp kept. -/
theorem enter_andThen {t : Nat} {s n : State} {k : State → Res}
    (h : andThen (enter .host t s) k = .next n) : k { s with lastT := t } = .next n := by
  obtain ⟨s1, he, hk⟩ := andThen_eq_next h
  obtain ⟨rfl, -, -⟩ := enter_eq_next he
  exact hk

/-- An operation that ends with its work's output set. -/
theorem works_of_finish {i : Instr} {v : Option Word} {c : Nat} {s u n : State}
    (hw : Works i s u) (h : finish v c u = .next n) :
    ∃ u o, n = { u with out := o } ∧ Works i s u := by
  cases h
  exact ⟨u, _, rfl, hw⟩

/-- All an operation that gives a next state can do: keep its timestamp, do its work, set the output. -/
theorem exec_eq_next {i : Instr} {s n : State} (h : exec i s = .next n) :
    ∃ u o, n = { u with out := o } ∧ Works i { s with lastT := instrTime i } u := by
  cases i with
  | ctrlRw ign idx data t => exact works_of_controlWrite rfl (fun _ => rfl) h
  | ctrlA1 cd a t => exact works_of_controlWrite rfl (fun _ => rfl) h
  | ctrlA2 hi cd mid a t => exact works_of_controlWrite rfl (fun _ => rfl) h
  | ctrlB1 b t => exact works_of_controlWrite rfl (fun _ => rfl) h
  | ctrlB2Addr cd a t => exact works_of_controlWrite rfl (fun _ => rfl) h
  | ctrlB2Reg a t => exact works_of_controlWrite rfl (fun _ => rfl) h
  | ctrlT2Addr rw a t => exact works_of_controlWrite rfl (fun _ => rfl) h
  | ctrlT2Reg ign idx t => exact works_of_controlWrite rfl (fun _ => rfl) h
  | dataW16 w t =>
    obtain ⟨hk, -⟩ := portAccess_andThen h
    split at hk
    · rename_i hm
      exact works_of_finish (.dataW16 hm) hk
    · cases hk
  | dataW8 v t =>
    obtain ⟨hk, hv⟩ := portAccess_andThen h
    exact works_of_finish (.dataW8 hv) hk
  | dataR16 t =>
    obtain ⟨hk, -⟩ := portAccess_andThen h
    split at hk
    · rename_i hm
      split at hk
      · rename_i hs
        exact works_of_finish (.stuck hm hs) hk
      · rename_i hs
        exact works_of_finish (.dataR16 hm (Bool.eq_false_of_not_eq_true hs)) hk
    · cases hk
  | dataR8 t =>
    obtain ⟨hk, hv⟩ := portAccess_andThen h
    exact works_of_finish (.dataR8 hv) hk
  | ctrlR16 t => exact works_of_finish .ctrlR16 (portAccess_andThen h).1
  | ctrlR8 t => exact works_of_finish .ctrlR8 (portAccess_andThen h).1
  | hvR16 t => exact works_of_finish .hvR16 (portAccess_andThen h).1
  | vR8 t =>
    obtain ⟨hk, -⟩ := portAccess_andThen h
    split at hk
    · cases hk
    · rename_i hv
      exact works_of_finish (.vR8 (Bool.eq_false_of_not_eq_true hv)) hk
  | hR8 t =>
    obtain ⟨hk, -⟩ := portAccess_andThen h
    split at hk
    · cases hk
    · rename_i hv
      exact works_of_finish (.hR8 (Bool.eq_false_of_not_eq_true hv)) hk
  | advance t =>
    have hk := enter_andThen h
    split at hk
    · cases hk
    · rename_i hd
      split at hk
      · rename_i hf
        exact works_of_finish (.armed hd hf) hk
      · rename_i hf
        exact works_of_finish (.advance hd (Bool.eq_false_of_not_eq_true hf)) hk
  | latchHv t =>
    have hk := enter_andThen h
    split at hk
    · rename_i ho
      exact works_of_finish (.latchHv ho) hk
    · rename_i ho
      exact works_of_finish (.latchShut (Bool.eq_false_of_not_eq_true ho)) hk
  | raster a b t => exact works_of_finish .raster (enter_andThen h)
  | reset t =>
    have hk := enter_andThen h
    exact works_of_finish .reset hk
  | serialize t =>
    cases enter_andThen h
    exact ⟨_, _, rfl, .serialize⟩
  | deserialize x t => exact works_of_finish .deserialize (enter_andThen h)

/-! ### Predicates every update keeps -/

/-- Two states differ at most in fields that no invariant reads. -/
def ScratchOnly (s n : State) : Prop :=
  n = { s with
    pending := n.pending
    ctrlLatch := n.ctrlLatch
    ggLatch := n.ggLatch
    fifoLastWrite := n.fifoLastWrite
    dmaSource := n.dmaSource
    fillByte := n.fillByte
    dmaEndCycles := n.dmaEndCycles
    deferredCtrl := n.deferredCtrl
    hvLatch := n.hvLatch
    lastT := n.lastT
    refused := n.refused
    cpuStuck := n.cpuStuck
    draws := n.draws
    out := n.out }

/-- Kept by what control and data accesses share: scratch fields; and a moved address with a new buffer,
both inside their bounds on the byte variants (R23, R27). -/
structure AccessKeeps (P : State → Prop) : Prop where
  scratch : ∀ {s n}, ScratchOnly s n → P s → P n
  data : ∀ {s a r d}, (s.cfg.variant.isByte = true → a.toNat < 16384 ∧ r.toNat < 256) →
    P s → P { s with addr := a, readBuf := r, draws := d }

/-- Kept by the parts of a control write (R131 to R134, R151 to R156, R260). -/
structure ControlKeeps (P : State → Prop) : Prop extends AccessKeeps P where
  writeRegister : ∀ {s} i d t, P s → P (s.writeRegister i d t)
  pointer : ∀ {s a c p}, (s.cfg.variant.isByte = true → a.toNat < 16384 ∧ c.toNat < 4) →
    P s → P { s with addr := a, code := c, pending := p }
  relatch : ∀ {s}, P s → P s.relatch
  request : ∀ {s}, s.m5 = true → P s → P s.dmaRequest

/-- Kept by the parts of every operation but DESERIALIZE. A guard on a value to be stored may rest on the
bound of the value it replaces, which the predicate may have. -/
structure ExecKeeps (P : State → Prop) : Prop extends AccessKeeps P where
  control : ∀ {step : Nat → State → State × Nat}, (∀ t {s}, P s → P (step t s).1) →
    ∀ {i s}, i.on s.cfg.variant = true → P s → P (controlEffect step i s).1.relatch
  dmaStepPlain : ∀ {s} t, P s → P (s.dmaStepPlain t).1
  disarm : ∀ {s}, P s → P { s with fillArmed := false }
  status : ∀ {s w}, (StatusForm s → statusForm w = true) → P s → P { s with status := w }
  fifo : ∀ {s c}, (s.fifoCount ≤ 4 → c ≤ 4) → (s.m5 = false → c = s.fifoCount) →
    P s → P { s with fifoCount := c }
  vramPut : ∀ {s i v}, (s.cfg.variant.isByte = true → s.addr.toNat < 16384 → i.toNat < 16384) →
    P s → P (s.vramPut i v)
  cramWrite : ∀ {s} i v, P s → P (s.cramWrite i v)
  vsramWrite : ∀ {s} a w, P s → P (s.vsramWrite a w)
  resetBlock : ∀ {s}, P s → P s.resetBlock

section access

variable {P : State → Prop} {s : State}

/-- The prefetch of the word port as one record (R190, R197). -/
theorem State.refill16_eq (s : State) :
    s.refill16 =
      { s with
        addr := s.addr + s.inc.setWidth 16
        readBuf := s.targetValue
        draws := if s.targetDraws then s.draws + 1 else s.draws } := by
  unfold State.refill16
  split <;> rfl

/-- The prefetch of the byte ports as one record (R152, R198). -/
theorem State.refill8_eq (s : State) :
    s.refill8 =
      { s with
        addr := (s.addr.setWidth 14 + 1#14).setWidth 16
        readBuf := (s.vram.read s.addr.toNat).setWidth 16 } := rfl

/-- A byte data write as one record over its store (R180). -/
theorem State.dataWrite8_eq (s : State) (v : Byte) :
    s.dataWrite8 v =
      { ({ s with pending := false } : State).byteStore v with
        addr := (s.addr.setWidth 14 + 1#14).setWidth 16
        readBuf := v.setWidth 16 } := by
  rw [State.dataWrite8, State.advance14, State.byteStore_addr]

theorem address14_lt (a : BitVec 14) : (a.setWidth 16).toNat < 16384 := by
  have := a.isLt
  simp only [BitVec.toNat_setWidth]
  omega

theorem byteWord_lt (b : Byte) : (b.setWidth 16).toNat < 256 := by
  have := b.isLt
  simp only [BitVec.toNat_setWidth]
  omega

/-- A guard on the byte variants says nothing on the word variant. -/
theorem word_guard {q : Prop} (h : s.cfg.variant.isByte = false) :
    s.cfg.variant.isByte = true → q := fun hb => by simp [h] at hb

/-- A target write is one of three stores, or none (R171 to R175). -/
theorem targetWrite_keeps {w : Word} (hvram : P (s.vramWordWrite s.addr w))
    (hcram : P (s.cramWrite s.cramIdx16 (pack12 w))) (hvsram : P (s.vsramWrite s.addr w))
    (hs : P s) : P (s.targetWrite w) := by
  unfold State.targetWrite
  split
  · exact hvram
  · split
    · exact hcram
    · split
      · exact hvsram
      · exact hs

theorem AccessKeeps.refill16 (h : AccessKeeps P) (hw : s.cfg.variant.isByte = false) (hs : P s) :
    P s.refill16 := by
  rw [State.refill16_eq]
  exact h.data (word_guard hw) hs

theorem AccessKeeps.refill8 (h : AccessKeeps P) (hs : P s) : P s.refill8 := by
  rw [State.refill8_eq]
  exact h.data (fun _ => ⟨address14_lt _, byteWord_lt _⟩) hs

end access

section control

variable {P : State → Prop} {step : Nat → State → State × Nat} (hstep : ∀ t {s}, P s → P (step t s).1)

include hstep in
theorem ControlKeeps.dmaTrigger (h : ControlKeeps P) {s : State} (t : Nat) (hm : s.m5 = true)
    (hs : P s) : P (s.dmaTrigger step t).1 := by
  unfold State.dmaTrigger
  cases s.dmaKind with
  | vbusToVram => exact hstep t (h.request hm hs)
  | vramFill => exact h.request hm hs
  | vramCopy => exact hstep t (h.request hm hs)

include hstep in
theorem ControlKeeps.commitA2 (h : ControlKeeps P) {s : State} (t : Nat)
    (hw : s.cfg.variant.isByte = false) (hs : P s) : P (s.commitA2 step t).1 := by
  unfold State.commitA2
  split
  · rename_i hd
    simp only [State.startsDma, Bool.and_eq_true] at hd
    exact h.dmaTrigger hstep t hd.2 hs
  · split
    · exact h.refill16 hw hs
    · exact hs

/-- A byte variant's second control byte commits a 14-bit address and a 2-bit code (R23, R24). -/
theorem ControlKeeps.latchB2 (h : ControlKeeps P) {s : State} (cd : BitVec 2) (a : BitVec 6)
    (hs : P s) : P (s.latchB2 cd a) := by
  refine h.pointer (fun _ => ⟨address14_lt _, ?_⟩) hs
  have := cd.isLt
  simp only [BitVec.toNat_setWidth]
  omega

theorem ControlKeeps.latchT2 (h : ControlKeeps P) {s : State} (rw : BitVec 1) (a : BitVec 6)
    (hs : P s) : P (s.latchT2 rw a) := by
  refine h.pointer (fun _ => ⟨address14_lt _, ?_⟩) hs
  have := rw.isLt
  simp only [BitVec.toNat_setWidth]
  omega

include hstep in
/-- A control write of the block's own variant keeps what its parts keep (R130 to R134). -/
theorem ControlKeeps.control (h : ControlKeeps P) {i : Instr} {s : State}
    (hi : i.on s.cfg.variant = true) (hs : P s) : P (controlEffect step i s).1.relatch := by
  refine h.relatch ?_
  cases i with
  | ctrlRw ign idx data t => exact h.writeRegister idx data t hs
  | ctrlA1 cd a t => exact h.pointer (word_guard (Variant.isByte_of_isWord hi)) hs
  | ctrlA2 hi' cd mid a t =>
    have hw := Variant.isByte_of_isWord hi
    exact h.commitA2 hstep t hw (h.pointer (word_guard hw) hs)
  | ctrlB1 b t => exact h.scratch (by rfl) hs
  | ctrlB2Addr cd a t =>
    simp only [controlEffect, State.effectB2Addr]
    split
    · exact h.refill8 (h.latchB2 cd a hs)
    · exact h.latchB2 cd a hs
  | ctrlB2Reg a t => exact h.writeRegister _ _ t (h.latchB2 _ a hs)
  | ctrlT2Addr rw a t =>
    simp only [controlEffect, State.effectT2Addr]
    split
    · exact h.refill8 (h.latchT2 rw a hs)
    · exact h.latchT2 rw a hs
  | ctrlT2Reg ign idx t => exact h.writeRegister _ _ t (h.scratch (by rfl) hs)
  | _ => exact hs

end control

/-! ### The stored status bits (R34) -/

theorem statusForm_iff (w : Word) : statusForm w = true ↔ w &&& 0xFF01#16 = 0#16 := by
  simp [statusForm]

theorem statusForm_and {w : Word} (m : Word) (h : statusForm w = true) :
    statusForm (w &&& m) = true := by
  rw [statusForm_iff] at *
  rw [BitVec.and_assoc, BitVec.and_comm m, ← BitVec.and_assoc, h, BitVec.zero_and]

theorem statusForm_or {w v : Word} (hw : statusForm w = true) (hv : statusForm v = true) :
    statusForm (w ||| v) = true := by
  rw [statusForm_iff] at *
  rw [BitVec.and_or_distrib_right, hw, hv]
  rfl

/-- A raster input reaches bits 2 to 7 only (R307). -/
theorem statusForm_rasterStatus (a b : Byte) {w : Word} (h : statusForm w = true) :
    statusForm (rasterStatus a b w) = true := by
  refine statusForm_or (statusForm_and _ h) ?_
  rw [statusForm_iff, BitVec.and_assoc]
  exact BitVec.and_zero

section exec

variable {P : State → Prop} (h : ExecKeeps P) {s : State}
include h

/-! The DMA step: the plain step, then the replay of a deferred write (R265, R273). -/

theorem ExecKeeps.replay (t : Nat) (hs : P s) : P (s.replay t) := by
  unfold State.replay
  split
  · exact hs
  · exact h.control (fun t _ hs => h.dmaStepPlain t hs) (State.decodeDeferred_on _ _ _)
      (h.scratch (by rfl) hs)

theorem ExecKeeps.dmaStep (t : Nat) (hs : P s) : P (s.dmaStep t).1 := by
  have hp := h.dmaStepPlain t hs
  unfold State.dmaStep
  unfold State.dmaStepPlain at hp
  split at hp
  · rename_i h0
    rw [if_pos h0]
    exact h.replay _ hp
  · rename_i h0
    rwa [if_neg h0]

/-! Data writes (R170 to R184, R243). -/

theorem ExecKeeps.vramWordWrite (a w : Word) (hw : s.cfg.variant.isByte = false) (hs : P s) :
    P (s.vramWordWrite a w) :=
  h.vramPut (word_guard (by simpa using hw)) (h.vramPut (word_guard hw) hs)

theorem ExecKeeps.busWrite (w : Word) (hw : s.cfg.variant.isByte = false) (hs : P s) :
    P (s.busWrite w) := by
  have ht : P (s.targetWrite w) :=
    targetWrite_keeps (h.vramWordWrite _ _ hw hs) (h.cramWrite _ _ hs) (h.vsramWrite _ _ hs) hs
  exact h.data (word_guard (by simpa using hw)) ht

theorem ExecKeeps.byteStore (v : Byte) (hs : P s) : P (s.byteStore v) := by
  have hv : P (s.vramPut s.addr v) := h.vramPut (fun _ ha => ha) hs
  unfold State.byteStore
  split
  · exact hv
  · split
    · split
      · exact h.cramWrite _ _ hs
      · exact h.scratch (by rfl) hs
    · exact hv
  · split
    · exact h.cramWrite _ _ hs
    · exact hv
  · split
    · exact h.cramWrite _ _ hs
    · exact hv
  · exact hs

theorem ExecKeeps.dataWrite8 (v : Byte) (hs : P s) : P (s.dataWrite8 v) := by
  rw [State.dataWrite8_eq]
  exact h.data (fun _ => ⟨address14_lt _, byteWord_lt _⟩) (h.byteStore v (h.scratch (by rfl) hs))

theorem ExecKeeps.fifoUpdate (t : Nat) (hs : P s) : P (s.fifoUpdate t) := by
  unfold State.fifoUpdate
  split
  · exact hs
  · rename_i hn
    have hm : s.m5 ≠ false := fun hm => hn (.inl hm)
    have hf : P { s with fifoCount := s.fifoCount - s.retired t } :=
      h.fifo (fun hc => (Nat.sub_le _ _).trans hc) (fun h5 => absurd h5 hm) hs
    exact h.scratch (by rfl) hf

theorem ExecKeeps.fifoCharge (t : Nat) (hm : s.m5 = true) (hs : P s) : P (s.fifoCharge t).1 := by
  unfold State.fifoCharge
  split
  · rename_i hc
    have hf : P { s with fifoCount := s.fifoCount + 1 } :=
      h.fifo (fun _ => hc) (fun h5 => by simp [hm] at h5) hs
    exact h.scratch (by rfl) hf
  · exact h.scratch (by rfl) hs

theorem ExecKeeps.fifoNoteWrite (t : Nat) (hs : P s) : P (s.fifoNoteWrite t).1 := by
  unfold State.fifoNoteWrite
  split
  · exact hs
  · rename_i hn
    have hm : s.m5 = true := by
      cases hm : s.m5
      · exact absurd (.inl hm) hn
      · rfl
    exact h.fifoCharge t (by simpa using hm) (h.fifoUpdate t hs)

theorem ExecKeeps.fillStart (w : Word) (t : Nat) (hs : P s) : P (s.fillStart w t).1 := by
  have hd : P { s with fillArmed := false } := h.disarm hs
  unfold State.fillStart
  split
  · exact h.dmaStep t (h.scratch (by rfl) hd)
  · exact h.scratch (by rfl) hd

theorem ExecKeeps.dataWrite16 (w : Word) (t : Nat) (hm : s.m5 = true) (hs : P s) :
    P (s.dataWrite16 w t).1 := by
  have hd : P (s.dataStore16 w t) := by
    refine h.busWrite w ?_ (h.fifoNoteWrite t (h.scratch (by rfl) hs))
    simpa [State.noteData] using State.isByte_of_m5 hm
  unfold State.dataWrite16
  split
  · exact h.fillStart w _ hd
  · exact hd

/-! The status word (R210, R211, R279, R307). -/

theorem ExecKeeps.statusUpdate (t : Nat) (hs : P s) : P (s.statusUpdate t) := by
  have hf := h.fifoUpdate t hs
  unfold State.statusUpdate State.dmaBusyUpdate
  split
  · exact h.status (fun hw => statusForm_and _ hw) hf
  · exact hf

theorem ExecKeeps.statusClear (hs : P s) : P s.statusClear := by
  have hw : P { s with status := s.status &&& 0xFF1F#16 } :=
    h.status (fun hw => statusForm_and _ hw) hs
  exact h.scratch (by rfl) hw

/-- The work of an operation keeps what its parts keep, a restored snapshot apart (R305). -/
theorem ExecKeeps.of_works {i : Instr} {n : State} (hw : Works i s n)
    (hx : ∀ x t, i = .deserialize x t → P (s.restore x)) (hs : P s) : P n := by
  cases hw with
  | deferred _ _ _ => exact h.scratch (by rfl) hs
  | control _ _ hi => exact h.control (fun t _ hs => h.dmaStep t hs) hi hs
  | dataW16 hm => exact h.dataWrite16 _ _ hm hs
  | dataW8 _ => exact h.dataWrite8 _ hs
  | stuck _ _ => exact h.scratch (by rfl) hs
  | dataR16 hm _ => exact h.refill16 (State.isByte_of_m5 hm) (h.scratch (by rfl) hs)
  | dataR8 _ => exact h.refill8 (h.scratch (by rfl) hs)
  | ctrlR16 => exact h.scratch (by rfl) (h.statusClear (h.statusUpdate _ hs))
  | ctrlR8 => exact h.scratch (by rfl) (h.statusClear (h.statusUpdate _ hs))
  | hvR16 => exact hs
  | vR8 _ => exact hs
  | hR8 _ => exact hs
  | serialize => exact hs
  | armed _ _ => exact hs
  | advance _ _ => exact h.dmaStep _ hs
  | latchShut _ => exact hs
  | latchHv _ => exact h.scratch (by rfl) hs
  | raster => exact h.status (statusForm_rasterStatus _ _) hs
  | reset => exact h.resetBlock hs
  | deserialize => exact hx _ _ rfl

theorem ExecKeeps.of_exec {i : Instr} {n : State} (he : exec i s = .next n)
    (hx : ∀ x t, i = .deserialize x t → P ({ s with lastT := t }.restore x)) (hs : P s) : P n := by
  obtain ⟨u, o, rfl, hw⟩ := exec_eq_next he
  refine h.scratch (s := u) (by rfl) (h.of_works hw ?_ (h.scratch (by rfl) hs))
  rintro x t rfl
  exact hx x t rfl

end exec

/-! ### The step -/

/-- Kept by the parts of every step but a restored snapshot: an event is taken, the renderer clears the dirty
set (R89, R306). -/
structure StepKeeps (P : State → Prop) : Prop extends ExecKeeps P where
  inbox : ∀ {s} l, P s → P { s with inbox := l }
  clean : ∀ {s}, P s → P { s with dirty := [] }

/-- A step keeps what its parts keep, where a snapshot in form that it restores does too. -/
theorem StepKeeps.of_step {P : State → Prop} (h : StepKeeps P) {s n : State} (hn : step s = .next n)
    (hx : ∀ x t rest, s.inbox = .op (.deserialize x t) :: rest → x.form = true →
      P ({ s with inbox := rest, lastT := t }.restore x))
    (hs : P s) : P n := by
  obtain ⟨-, rfl⟩ | ⟨c, rest, -, rfl⟩ | ⟨a, rest, -, -, -, rfl⟩ | ⟨a, rest, i, hb, -, hd, he⟩ :=
    step_eq_next hn
  · exact hs
  · cases c
    · exact h.inbox rest hs
    · exact h.clean (h.inbox rest hs)
  · exact h.inbox rest hs
  · refine h.of_exec he ?_ (h.inbox rest hs)
    rintro x t rfl
    obtain ⟨rfl, hf⟩ := decode_eq_deserialize hd
    exact hx x t rest hb hf

end Sys2Proof.Machine
end

section
/-! Proofs, the configuration, the events issued and the stored status word: no step changes the first, takes
more than one of the second or leaves the form of the third. -/

namespace Sys2Proof.Machine

/-- A plain DMA step completes the request exactly when no unit is left (R265, R273). -/
theorem dmaStepPlain_cases (s : State) (t : Nat) :
    ((s.dmaTransfer t).dmaRemaining = 0 ∧ (s.dmaStepPlain t).1 = (s.dmaTransfer t).dmaFinish) ∨
    ((s.dmaTransfer t).dmaRemaining ≠ 0 ∧ (s.dmaStepPlain t).1 = s.dmaTransfer t) := by
  unfold State.dmaStepPlain
  split
  · rename_i h
    exact .inl ⟨h, rfl⟩
  · rename_i h
    exact .inr ⟨h, rfl⟩

/-! ### No operation changes the configuration or the events issued (R20, R89) -/

/-- The state of a given configuration with given events still to be taken. -/
def HasCfgInbox (c : Config) (l : List Event) (s : State) : Prop := s.cfg = c ∧ s.inbox = l

theorem hasCfgInbox_congr {c : Config} {l : List Event} {s n : State} (hc : n.cfg = s.cfg)
    (hi : n.inbox = s.inbox) (h : HasCfgInbox c l s) : HasCfgInbox c l n :=
  ⟨hc.trans h.1, hi.trans h.2⟩

theorem hasCfgInbox_control (c : Config) (l : List Event) : ControlKeeps (HasCfgInbox c l) where
  scratch hn h := by rw [hn]; exact h
  data _ h := h
  writeRegister i d t := hasCfgInbox_congr (by simp) (by simp)
  pointer _ h := h
  relatch h := h
  request _ := hasCfgInbox_congr (by simp) (by simp)

theorem hasCfgInbox_exec (c : Config) (l : List Event) : ExecKeeps (HasCfgInbox c l) where
  toAccessKeeps := (hasCfgInbox_control c l).toAccessKeeps
  control hstep _ _ := (hasCfgInbox_control c l).control hstep
  dmaStepPlain {s} t := by
    obtain ⟨-, he⟩ | ⟨-, he⟩ := dmaStepPlain_cases s t <;>
      exact hasCfgInbox_congr (by simp [he]) (by simp [he])
  disarm h := h
  status _ h := h
  fifo _ _ h := h
  vramPut _ := hasCfgInbox_congr (by simp) (by simp)
  cramWrite i v := hasCfgInbox_congr (by simp) (by simp)
  vsramWrite a w h := h
  resetBlock h := h

/-- A step leaves the configuration and takes at most one event. -/
theorem step_cfg_inbox {s n : State} (h : step s = .next n) :
    n.cfg = s.cfg ∧ ∀ e ∈ n.inbox, e ∈ s.inbox := by
  obtain ⟨-, rfl⟩ | ⟨c, rest, hb, rfl⟩ | ⟨a, rest, hb, -, -, rfl⟩ | ⟨a, rest, i, hb, -, hd, he⟩ :=
    step_eq_next h
  · exact ⟨rfl, fun _ he => he⟩
  · exact ⟨rfl, fun e he => by rw [hb]; exact .tail _ he⟩
  · exact ⟨rfl, fun e he => by rw [hb]; exact .tail _ he⟩
  · obtain ⟨hc, hi⟩ := (hasCfgInbox_exec s.cfg rest).of_exec he (fun _ _ _ => ⟨rfl, rfl⟩) ⟨rfl, rfl⟩
    exact ⟨hc, fun e he => by rw [hb]; exact .tail _ (hi ▸ he)⟩

/-! ### An invariant with the snapshots still to be restored (R308) -/

theorem Kept.mono {P Q : State → Prop} (hpq : ∀ s, P s → Q s) {s : State} (h : Kept P s) :
    Kept Q s :=
  ⟨hpq s h.1, fun x t hx => hpq _ (h.2 x t hx)⟩

/-- A step keeps, for the pending snapshots too, what its parts keep and what of a restored state rests on the
configuration and the snapshot alone (R308). -/
theorem StepKeeps.kept {P : State → Prop} (h : StepKeeps P)
    (hr : ∀ {x} {s : State}, P ((State.create s.cfg).restore x) → P (s.restore x)) {s n : State}
    (hs : Kept P s) (hn : step s = .next n) : Kept P n := by
  obtain ⟨hc, hi⟩ := step_cfg_inbox hn
  obtain ⟨hp, hx⟩ := hs
  refine ⟨h.of_step hn (fun x t rest hb _ => hr (hx x t ?_)) hp, fun x t hm => ?_⟩
  · simp [hb]
  · rw [hc]
    exact hx x t (hi _ hm)

/-! ### The status word (R34) -/

theorem statusForm_zero : statusForm 0#16 = true := rfl

theorem statusForm_congr {s n : State} (he : n.status = s.status) (h : StatusForm s) :
    StatusForm n := by rw [StatusForm, he]; exact h

theorem statusForm_control : ControlKeeps StatusForm where
  scratch hn h := by rw [hn]; exact h
  data _ h := h
  writeRegister i d t := statusForm_congr (by simp)
  pointer _ h := h
  relatch h := h
  request _ := statusForm_congr (by simp)

/-- DMA busy is one of the stored bits (R33, R276). -/
theorem statusForm_dmaTransfer {s : State} (t : Nat) (h : StatusForm s) :
    StatusForm (s.dmaTransfer t) := by
  have hb : StatusForm (s.stepBusy t) := by
    unfold State.stepBusy
    split
    · exact h
    · exact statusForm_or h rfl
  exact statusForm_congr (by simp [State.dmaTransfer]) hb

theorem statusForm_step : StepKeeps StatusForm where
  __ := statusForm_control.toAccessKeeps
  control hstep _ _ := statusForm_control.control hstep
  dmaStepPlain {s} t h := by
    have ht := statusForm_dmaTransfer t h
    obtain ⟨-, he⟩ | ⟨-, he⟩ := dmaStepPlain_cases s t <;> exact statusForm_congr (by simp [he]) ht
  disarm h := h
  status hw h := hw h
  fifo _ _ h := h
  vramPut _ := statusForm_congr (by simp)
  cramWrite i v := statusForm_congr (by simp)
  vsramWrite a w h := h
  resetBlock _ := statusForm_zero
  inbox _ h := h
  clean h := h

/-- Settles O59: the configuration by `step_cfg_inbox`; every stored status bit comes under a mask, and a
restored status word is in form because its snapshot is. -/
theorem stepKeepsConfigAndStatus : Obligations.StepKeepsConfigAndStatus := by
  intro s n hn
  refine ⟨(step_cfg_inbox hn).1, statusForm_step.of_step hn fun x t rest _ hx => ?_⟩
  simp only [Snapshot.form, Bool.and_eq_true] at hx
  exact hx.2

end Sys2Proof.Machine
end

section
/-! Proofs, the FIFO and the DMA request: the fields their forms read, part by part. -/

namespace Sys2Proof.Machine

/-! ### The FIFO (R46, R134, R246) -/

/-- The FIFO holds at most four writes, none while Mode 5 is off (R46, R246). -/
def FifoCount (s : State) : Prop := s.fifoCount ≤ 4 ∧ (s.m5 = false → s.fifoCount = 0)

/-- The cached latency is that of the current mode and code (R134). -/
def FifoLatency (s : State) : Prop := s.fifoLatency = s.latencyNow

theorem fifoForm_iff (s : State) : FifoForm s ↔ FifoCount s ∧ FifoLatency s := by
  rw [FifoForm, FifoCount, FifoLatency, and_assoc]

theorem fifoCount_congr {s n : State} (hc : n.fifoCount = s.fifoCount) (hm : n.m5 = s.m5)
    (h : FifoCount s) : FifoCount n := by rw [FifoCount, hc, hm]; exact h

/-- A register write that switches Mode 5 off empties the FIFO (R143). -/
theorem fifoCount_writeRegister {s : State} (i : BitVec 5) (d : Byte) (t : Nat)
    (h : FifoCount s) : FifoCount (s.writeRegister i d t) := by
  by_cases hi : s.regIgnored i = true
  · rwa [State.writeRegister_of_ignored d t hi]
  · obtain ⟨h4, h0⟩ := h
    have hm : (s.writeRegister i d t).m5 = (s.setReg i d).m5 :=
      State.m5_congr (by simp) (by rw [State.writeRegister_of_not_ignored d t hi])
    have hc : (s.writeRegister i d t).fifoCount =
        if s.m5 = true ∧ (s.setReg i d).m5 = false then 0 else s.fifoCount := by
      rw [State.writeRegister_of_not_ignored d t hi]
    rw [FifoCount, hm, hc]
    split
    · exact ⟨Nat.zero_le 4, fun _ => rfl⟩
    · rename_i hn
      refine ⟨h4, fun hoff => h0 ?_⟩
      cases hon : s.m5
      · rfl
      · exact absurd ⟨hon, hoff⟩ hn

theorem fifoCount_control : ControlKeeps FifoCount where
  scratch hn h := by rw [hn]; exact h
  data _ h := h
  writeRegister i d t := fifoCount_writeRegister i d t
  pointer _ h := h
  relatch h := h
  request _ := fifoCount_congr (by simp) (by simp)

theorem fifoCount_step : StepKeeps FifoCount where
  __ := fifoCount_control.toAccessKeeps
  control hstep _ _ := fifoCount_control.control hstep
  dmaStepPlain {s} t := by
    obtain ⟨-, he⟩ | ⟨-, he⟩ := dmaStepPlain_cases s t <;>
      exact fifoCount_congr (by simp [he]) (by simp [he])
  disarm h := h
  status _ h := h
  fifo h4 h0 h := ⟨h4 h.1, fun hm => (h0 hm).trans (h.2 hm)⟩
  vramPut _ := fifoCount_congr (by simp) (by simp)
  cramWrite i v := fifoCount_congr (by simp) (by simp)
  vsramWrite a w h := h
  resetBlock _ := ⟨Nat.zero_le 4, fun _ => rfl⟩
  inbox _ h := h
  clean h := h

theorem fifoLatency_congr {s n : State} (hl : n.fifoLatency = s.fifoLatency) (hc : n.cfg = s.cfg)
    (hk : n.code = s.code) (hh : n.h40 = s.h40) (h : FifoLatency s) : FifoLatency n := by
  rw [FifoLatency, State.latencyNow, State.vramTarget, State.target, hl, hc, hk, hh]
  exact h

theorem fifoLatency_create (c : Config) : FifoLatency (State.create c) := by
  have hh : (State.create c).h40 = false := by simp [State.h40]
  rw [FifoLatency, State.latencyNow, hh]
  rfl

/-- Every control write recomputes the latency (R134), and nothing else reaches what it is computed of. -/
theorem fifoLatency_step : StepKeeps FifoLatency where
  scratch hn h := by rw [hn]; exact h
  data _ h := h
  control _ _ _ _ _ := rfl
  dmaStepPlain {s} t := by
    obtain ⟨-, he⟩ | ⟨-, he⟩ := dmaStepPlain_cases s t <;>
      exact fifoLatency_congr (by simp [he]) (by simp [he]) (by simp [he]) (by simp [he])
  disarm h := h
  status _ h := h
  fifo _ _ h := h
  vramPut _ := fifoLatency_congr (by simp) (by simp) (by simp) (by simp)
  cramWrite i v := fifoLatency_congr (by simp) (by simp) (by simp) (by simp)
  vsramWrite a w h := h
  resetBlock {s} _ := fifoLatency_create s.cfg
  inbox _ h := h
  clean h := h

/-- Settles O55: the count and the latency are kept each on its own, since the latency is wrong inside a control
write until the write's last part recomputes it. -/
theorem stepKeepsFifo : Obligations.StepKeepsFifo := by
  intro s n hs hn
  have hc := fifoCount_step.kept (fun h => h)
    (hs.mono fun u hu => ((fifoForm_iff u).mp hu).1) hn
  have hl := fifoLatency_step.kept (fun h => h)
    (hs.mono fun u hu => ((fifoForm_iff u).mp hu).2) hn
  exact ⟨(fifoForm_iff n).mpr ⟨hc.1, hl.1⟩,
    fun x t hx => (fifoForm_iff _).mpr ⟨hc.2 x t hx, hl.2 x t hx⟩⟩

/-! ### The DMA request (R36, R46) -/

theorem dmaForm_congr {s n : State} (hr : n.dmaRemaining = s.dmaRemaining)
    (ht : n.dmaType = s.dmaType) (hf : n.fillArmed = s.fillArmed) (h : DmaForm s) : DmaForm n := by
  rw [DmaForm, hr, ht, hf]; exact h

theorem dmaForm_create (c : Config) : DmaForm (State.create c) :=
  ⟨⟨fun _ => rfl, fun _ => rfl⟩, Nat.zero_le _, fun h => by cases h⟩

/-- A request's length is 1 to 65536 (R260, R264). -/
theorem dmaLength_bounds (s : State) : 0 < s.dmaLength ∧ s.dmaLength ≤ 65536 := by
  have := s.dmaLen.isLt
  unfold State.dmaLength
  split
  · decide
  · rename_i h
    have : s.dmaLen.toNat ≠ 0 := fun h0 => h (BitVec.eq_of_toNat_eq h0)
    omega

theorem dmaForm_request (s : State) : DmaForm s.dmaRequest := by
  obtain ⟨hpos, hle⟩ := dmaLength_bounds s
  unfold State.dmaRequest
  cases s.dmaKind <;> simp [DmaForm, hle, hpos.ne']

/-- A step moves units out of the remaining length; one that empties it destroys the request (R265, R273). -/
theorem dmaForm_dmaStepPlain {s : State} (t : Nat) (h : DmaForm s) :
    DmaForm (s.dmaStepPlain t).1 := by
  obtain ⟨hnone, hle, harm⟩ := h
  have hrem : (s.dmaTransfer t).dmaRemaining = s.dmaRemaining - s.stepUnits t := by
    simp [State.dmaTransfer]
  obtain ⟨h0, he⟩ | ⟨h0, he⟩ := dmaStepPlain_cases s t <;> rw [he]
  · exact ⟨⟨fun _ => rfl, fun _ => by simpa using h0⟩, by simp [h0], fun hf => by cases hf⟩
  · rw [DmaForm, State.dmaTransfer_dmaType, State.dmaTransfer_fillArmed]
    refine ⟨⟨fun hz => absurd hz h0, fun hn => ?_⟩, by omega, harm⟩
    have := hnone.mpr hn
    omega

theorem dmaForm_control : ControlKeeps DmaForm where
  scratch hn h := by rw [hn]; exact h
  data _ h := h
  writeRegister i d t := dmaForm_congr (by simp) (by simp) (by simp)
  pointer _ h := h
  relatch h := h
  request _ _ := dmaForm_request _

theorem dmaForm_step : StepKeeps DmaForm where
  __ := dmaForm_control.toAccessKeeps
  control hstep _ _ := dmaForm_control.control hstep
  dmaStepPlain t := dmaForm_dmaStepPlain t
  disarm h := ⟨h.1, h.2.1, fun hf => by cases hf⟩
  status _ h := h
  fifo _ _ h := h
  vramPut _ := dmaForm_congr (by simp) (by simp) (by simp)
  cramWrite i v := dmaForm_congr (by simp) (by simp) (by simp)
  vsramWrite a w h := h
  resetBlock {s} _ := dmaForm_create s.cfg
  inbox _ h := h
  clean h := h

/-- Settles O56: every part keeps the form, a whole DMA step being one part. -/
theorem stepKeepsDma : Obligations.StepKeepsDma :=
  fun _ _ hs hn => dmaForm_step.kept (fun h => h) hs hn

end Sys2Proof.Machine
end

section
/-! Proofs, the derived caches and the memory banks: every store keeps them, also those of DMA units. -/

namespace Sys2Proof.Machine

/-! ### What a run of DMA units keeps (R265, R270 to R272) -/

/-- A DMA unit keeps what its store and its moved cursors keep, on any variant. -/
theorem dmaUnit_keeps {P : State → Prop}
    (hmove : ∀ {s a x d}, P s → P { s with addr := a, dmaSource := x, draws := d })
    (hvram : ∀ {s} i v, P s → P (s.vramPut i v)) (hcram : ∀ {s} i v, P s → P (s.cramWrite i v))
    (hvsram : ∀ {s} a w, P s → P (s.vsramWrite a w)) {s : State} (hs : P s) : P s.dmaUnit := by
  unfold State.dmaUnit
  split
  · have hd : P s.drawn := hmove hs
    have ht : P (s.drawn.targetWrite (s.busRead s.dmaSource)) :=
      targetWrite_keeps (hvram _ _ (hvram _ _ hd)) (hcram _ _ hd) (hvsram _ _ hd) hd
    have hb : P (s.drawn.busWrite (s.busRead s.dmaSource)) := hmove ht
    exact hmove hb
  · exact hmove (hvram _ _ hs)
  · have hc : P { (s.vramPut (s.addr ^^^ 1#16) (s.vram.read (s.copySource ^^^ 1#16).toNat)) with
        dmaSource := (s.copySource + 1#16).setWidth 24 } := hmove (hvram _ _ hs)
    exact hmove hc
  · exact hs

theorem dmaUnits_keeps {P : State → Prop} (hunit : ∀ {s}, P s → P s.dmaUnit) (n : Nat) {s : State}
    (hs : P s) : P (State.dmaUnits n s) := by
  induction n generalizing s with
  | zero => exact hs
  | succ n ih => exact ih (hunit hs)

/-! ### The derived caches (R41 to R43) -/

theorem cacheForm_congr {s n : State} (hc : n.cfg = s.cfg) (hr : n.reg = s.reg)
    (hm : n.cram = s.cram) (hmode : n.renderMode = s.renderMode)
    (hlines : n.displayLines = s.displayLines) (hback : n.backdropColor = s.backdropColor)
    (h : CacheForm s) : CacheForm n := by
  rw [CacheForm, State.backdropNow, hmode, hlines, hback, hm, State.renderModeNow_congr hc hr,
    State.displayLinesNow_congr hc hr, State.backdropIdx_congr hc hr]
  exact h

/-- A write of another entry leaves an entry of CRAM (R79). -/
theorem cramEntry_cramStore_other (m : Memory) {i j : BitVec 6} (v : Colour) (h : j ≠ i) :
    cramEntry (cramStore m i v) j = cramEntry m j := by
  have hn : j.toNat ≠ i.toNat := fun he => h (BitVec.eq_of_toNat_eq he)
  unfold cramEntry cramStore
  rw [Memory.read_write_other _ _ (by omega), Memory.read_write_other _ _ (by omega),
    Memory.read_write_other _ _ (by omega), Memory.read_write_other _ _ (by omega)]

/-- A CRAM write of the backdrop's entry republishes it, of any other leaves its colour (R43, R79). -/
theorem cacheForm_cramWrite {s : State} (i : BitVec 6) (v : Colour) (h : CacheForm s) :
    CacheForm (s.cramWrite i v) := by
  obtain ⟨hmode, hlines, hback⟩ := h
  unfold State.cramWrite
  split
  · exact ⟨hmode, hlines, rfl⟩
  · rename_i hi
    refine ⟨hmode, hlines, hback.trans ?_⟩
    exact (cramEntry_cramStore_other s.cram v (Ne.symm hi)).symm

theorem cacheForm_writeRegister {s : State} (i : BitVec 5) (d : Byte) (t : Nat)
    (h : CacheForm s) : CacheForm (s.writeRegister i d t) := by
  by_cases hi : s.regIgnored i = true
  · rwa [State.writeRegister_of_ignored d t hi]
  · have hn : CacheForm (s.setReg i d).recomputeDerived := ⟨rfl, rfl, rfl⟩
    rw [State.writeRegister_of_not_ignored d t hi]
    exact cacheForm_congr rfl rfl rfl rfl rfl rfl hn

theorem cacheForm_dmaUnit {s : State} (h : CacheForm s) : CacheForm s.dmaUnit :=
  dmaUnit_keeps (P := CacheForm) (fun h => h)
    (fun i v => cacheForm_congr (by simp) (by simp) (by simp) (by simp) (by simp) (by simp))
    (fun i v => cacheForm_cramWrite i v) (fun _ _ h => h) h

theorem cacheForm_dmaTransfer {s : State} (t : Nat) (h : CacheForm s) :
    CacheForm (s.dmaTransfer t) :=
  dmaUnits_keeps (P := CacheForm) cacheForm_dmaUnit _
    (cacheForm_congr (s := s) (by simp) (by simp) (by simp) (by simp) (by simp) (by simp) h)

/-- A completed DMA writes no register the caches are derived from (R273). -/
theorem cacheForm_dmaFinish {s : State} (h : CacheForm s) : CacheForm s.dmaFinish := by
  obtain ⟨hmode, hlines, hback⟩ := h
  exact ⟨by simpa using hmode, by simpa using hlines, by simpa [State.backdropNow] using hback⟩

theorem cacheForm_control : ControlKeeps CacheForm where
  scratch hn h := by rw [hn]; exact h
  data _ h := h
  writeRegister i d t := cacheForm_writeRegister i d t
  pointer _ h := h
  relatch h := h
  request _ := cacheForm_congr (by simp) (by simp) (by simp) (by simp) (by simp) (by simp)

theorem cacheForm_step : StepKeeps CacheForm where
  __ := cacheForm_control.toAccessKeeps
  control hstep _ _ := cacheForm_control.control hstep
  dmaStepPlain {s} t h := by
    have ht := cacheForm_dmaTransfer t h
    obtain ⟨-, he⟩ | ⟨-, he⟩ := dmaStepPlain_cases s t <;> rw [he]
    · exact cacheForm_dmaFinish ht
    · exact ht
  disarm h := h
  status _ h := h
  fifo _ _ h := h
  vramPut _ := cacheForm_congr (by simp) (by simp) (by simp) (by simp) (by simp) (by simp)
  cramWrite i v := cacheForm_cramWrite i v
  vsramWrite a w h := h
  resetBlock {s} _ := cacheForm_create s.cfg
  inbox _ h := h
  clean h := h

/-- Settles O58: a restored snapshot's caches are recomputed (R305), so no premise on it is needed. -/
theorem stepKeepsCaches : Obligations.StepKeepsCaches :=
  fun _ _ hs hn => cacheForm_step.of_step hn (fun _ _ _ _ _ => ⟨rfl, rfl, rfl⟩) hs

/-! ### The banks, the SAT shadow and the dirty set (R39, R40, R73) -/

theorem bankForm_congr {s n : State} (hv : n.vram = s.vram) (hc : n.cram = s.cram)
    (hvs : n.vsram = s.vsram) (hs : n.sat = s.sat) (hd : n.dirty = s.dirty) (h : BankForm s) :
    BankForm n := by
  rw [BankForm, hv, hc, hvs, hs, hd]
  exact h

/-- The SAT shadow is indexed by an offset from the base, so below 65536 (R75; log entry 18). -/
theorem satIdx_lt (s : State) (i : Word) : s.satIdx i < 65536 :=
  (Nat.sub_le _ _).trans_lt (s.logIdx i).isLt

theorem bankForm_vramPut {s : State} (i : Word) (v : Byte) (h : BankForm s) :
    BankForm (s.vramPut i v) := by
  have hst : BankForm (s.vramStore i v) := by
    obtain ⟨hv, hc, hvs, hs, hd⟩ := h
    unfold State.vramStore
    split
    · exact ⟨hv, hc, hvs, hs, hd⟩
    · have := i.isLt
      exact ⟨Memory.wf_write v i.isLt hv, hc, hvs, hs,
        tilesFrom_markTile (Nat.zero_le _) (by omega) hd⟩
  obtain ⟨hv, hc, hvs, hs, hd⟩ := hst
  unfold State.vramPut State.satMirror
  split
  · exact ⟨hv, hc, hvs, Memory.wf_write v (satIdx_lt _ i) hs, hd⟩
  · exact ⟨hv, hc, hvs, hs, hd⟩

/-- The odd byte of a stored entry is its one top bit (R73). -/
theorem topBit_cases (v : Colour) :
    (v.extractLsb' 8 1).setWidth 8 = 0#8 ∨ (v.extractLsb' 8 1).setWidth 8 = 1#8 := by
  generalize v.extractLsb' 8 1 = b
  revert b
  decide

theorem cramForm_cramStore {m : Memory} (i : BitVec 6) (v : Colour) (h : cramForm m = true) :
    cramForm (cramStore m i v) = true := by
  have := i.isLt
  exact cramForm_write (by omega) (.inr (topBit_cases v))
    (cramForm_write (by omega) (.inl (by omega)) h)

theorem bankForm_cramWrite {s : State} (i : BitVec 6) (v : Colour) (h : BankForm s) :
    BankForm (s.cramWrite i v) := by
  obtain ⟨hv, hc, hvs, hs, hd⟩ := h
  have hc' := cramForm_cramStore i v hc
  unfold State.cramWrite
  split <;> exact ⟨hv, hc', hvs, hs, hd⟩

theorem bankForm_vsramWrite {s : State} (a w : Word) (h : BankForm s) :
    BankForm (s.vsramWrite a w) := by
  obtain ⟨hv, hc, hvs, hs, hd⟩ := h
  have hi : vsramIdx a + 1 < 128 := by rw [vsramIdx_eq]; omega
  exact ⟨hv, hc, Memory.wf_write _ hi (Memory.wf_write _ (by omega) hvs), hs, hd⟩

theorem bankForm_dmaTransfer {s : State} (t : Nat) (h : BankForm s) :
    BankForm (s.dmaTransfer t) :=
  dmaUnits_keeps (P := BankForm)
    (dmaUnit_keeps (P := BankForm) (fun h => h) (fun i v => bankForm_vramPut i v)
      (fun i v => bankForm_cramWrite i v) (fun a w => bankForm_vsramWrite a w)) _
    (bankForm_congr (s := s) (by simp) (by simp) (by simp) (by simp) (by simp) h)

theorem bankForm_control : ControlKeeps BankForm where
  scratch hn h := by rw [hn]; exact h
  data _ h := h
  writeRegister i d t := bankForm_congr (by simp) (by simp) (by simp) (by simp) (by simp)
  pointer _ h := h
  relatch h := h
  request _ := bankForm_congr (by simp) (by simp) (by simp) (by simp) (by simp)

theorem bankForm_step : StepKeeps BankForm where
  __ := bankForm_control.toAccessKeeps
  control hstep _ _ := bankForm_control.control hstep
  dmaStepPlain {s} t h := by
    have ht := bankForm_dmaTransfer t h
    obtain ⟨-, he⟩ | ⟨-, he⟩ := dmaStepPlain_cases s t <;>
      exact bankForm_congr (by simp [he]) (by simp [he]) (by simp [he]) (by simp [he])
        (by simp [he]) ht
  disarm h := h
  status _ h := h
  fifo _ _ h := h
  vramPut {_ i v} _ := bankForm_vramPut i v
  cramWrite i v := bankForm_cramWrite i v
  vsramWrite a w := bankForm_vsramWrite a w
  resetBlock _ := ⟨rfl, rfl, rfl, rfl, rfl⟩
  inbox _ h := h
  clean {_} := fun ⟨hv, hc, hvs, hs, _⟩ => ⟨hv, hc, hvs, hs, rfl⟩

/-- The SAT shadow rebuilt from VRAM is a bank (R75, R305). -/
theorem wf_satRebuilt (s : State) : Memory.wf 65536 s.satRebuilt = true := by
  refine List.foldlRecOn (motive := fun m => Memory.wf 65536 m = true) s.vram _ rfl
    fun m hm c _ => ?_
  split
  · exact Memory.wf_write _ (satIdx_lt _ _) hm
  · exact hm

theorem tilesFrom_range' (lo n : Nat) (h : lo + n ≤ 2048) :
    tilesFrom lo (List.range' lo n) = true := by
  induction n generalizing lo with
  | zero => rfl
  | succ n ih =>
    simp only [List.range'_succ, tilesFrom, Bool.and_eq_true, decide_eq_true_eq]
    exact ⟨⟨le_rfl, by omega⟩, ih (lo + 1) (by omega)⟩

theorem tilesFrom_allTiles : tilesFrom 0 allTiles = true := by
  rw [allTiles, List.range_eq_range']
  exact tilesFrom_range' 0 2048 le_rfl

/-- A snapshot in form restores banks in form (R303, R305). -/
theorem bankForm_restore {x : Snapshot} (s : State) (hx : x.form = true) :
    BankForm (s.restore x) := by
  simp only [Snapshot.form, Bool.and_eq_true] at hx
  obtain ⟨⟨⟨⟨⟨hv, hc⟩, hvs⟩, -⟩, -⟩, -⟩ := hx
  have hd : tilesFrom 0 (s.restore x).dirty = true := by
    simp only [State.restore, State.rebuild, tilesFrom_allTiles]
  exact ⟨hv, hc, hvs, wf_satRebuilt _, hd⟩

/-- Settles O54: every store lands inside its bank, and only a snapshot in form is restored. -/
theorem stepKeepsBanks : Obligations.StepKeepsBanks :=
  fun _ _ hs hn => bankForm_step.of_step hn (fun _ _ _ _ hx => bankForm_restore _ hx) hs

end Sys2Proof.Machine
end

section
/-! Proofs, the byte variants, and the state after `create`. -/

namespace Sys2Proof.Machine

/-! ### The byte variants (R23, R24, R27, R31, R46, R71) -/

theorem byteForm_congr {s n : State} (hc : n.cfg = s.cfg) (ha : n.addr = s.addr)
    (hk : n.code = s.code) (hb : n.readBuf = s.readBuf) (ht : n.dmaType = s.dmaType)
    (hf : n.fillArmed = s.fillArmed) (hr : ∀ i, n.rd i = s.rd i) (hv : n.vram = s.vram)
    (h : ByteForm s) : ByteForm n := by
  simp only [ByteForm, hc, ha, hk, hb, ht, hf, hr, hv]
  exact h

/-- What holds of the word variant only says nothing on the byte variants. -/
theorem byteForm_of_word {s : State} (h : s.cfg.variant.isByte = false) : ByteForm s :=
  word_guard h

theorem byteForm_writeRegister {s : State} (i : BitVec 5) (d : Byte) (t : Nat)
    (h : ByteForm s) : ByteForm (s.writeRegister i d t) := by
  intro hb
  rw [State.writeRegister_cfg] at hb
  obtain ⟨ha, hk, hbuf, ht, hf, hr, hv⟩ := h hb
  refine ⟨by simpa using ha, by simpa using hk, by simpa using hbuf, by simpa using ht,
    by simpa using hf, fun j hlo hhi => ?_, by simpa using hv⟩
  by_cases hi : s.regIgnored i = true
  · rw [State.writeRegister_of_ignored d t hi]
    exact hr j hlo hhi
  · have hj : j ≠ i := by
      rintro rfl
      exact hi ((s.regIgnored_iff j).mpr ⟨⟨hlo, hhi⟩, State.m5_of_isByte hb⟩)
    rw [State.rd_writeRegister d t j hi, if_neg hj]
    exact hr j hlo hhi

/-- A VRAM write below 16384 keeps the bank inside that bound (R71). -/
theorem wf_vramPut {s : State} {size : Nat} {i : Word} (v : Byte) (hi : i.toNat < size)
    (h : Memory.wf size s.vram = true) : Memory.wf size (s.vramPut i v).vram = true := by
  rw [State.vramPut, State.satMirror_vram, State.vramStore]
  split
  · exact h
  · exact Memory.wf_write v hi h

theorem byteForm_vramPut {s : State} {i : Word} (v : Byte)
    (hi : s.cfg.variant.isByte = true → s.addr.toNat < 16384 → i.toNat < 16384)
    (h : ByteForm s) : ByteForm (s.vramPut i v) := by
  intro hb
  rw [State.vramPut_cfg] at hb
  obtain ⟨ha, hk, hbuf, ht, hf, hr, hv⟩ := h hb
  exact ⟨by simpa using ha, by simpa using hk, by simpa using hbuf, by simpa using ht,
    by simpa using hf, by simpa using hr, wf_vramPut v (hi hb ha) hv⟩

theorem dmaUnits_of_none {s : State} (n : Nat) (h : s.dmaType = none) :
    State.dmaUnits n s = s :=
  dmaUnits_keeps (P := fun u => u = s) (by rintro u rfl; rw [State.dmaUnit, h]) n rfl

/-- With no request in flight a step moves no unit: only its busy bit, its end and its count change. -/
theorem dmaTransfer_of_none {s : State} (t : Nat) (h : s.dmaType = none) :
    s.dmaTransfer t =
      { s.stepBusy t with dmaRemaining := s.dmaRemaining - s.stepUnits t } :=
  dmaUnits_of_none _ (by simpa using h)

/-- A completion with no request in flight clears the length registers and writes no other. -/
theorem dmaFinish_rd_of_none {s : State} (h : s.dmaType = none) (j : BitVec 5) :
    s.dmaFinish.rd j = if j = 20#5 then 0#8 else if j = 19#5 then 0#8 else s.rd j := by
  have hw : s.clearLength.writebackIf = s.clearLength := by
    unfold State.writebackIf State.sourceWriteback
    rw [State.clearLength_dmaType, h]
    split <;> rfl
  have hf : s.dmaFinish.rd j = s.clearLength.writebackIf.rd j := rfl
  rw [hf, hw, State.clearLength, State.rd_setReg, State.rd_setReg]
  rfl

/-- A byte variant has no DMA to step: no unit runs, and the registers a completion clears are clear. -/
theorem byteForm_dmaStepPlain {s : State} (t : Nat) (h : ByteForm s) :
    ByteForm (s.dmaStepPlain t).1 := by
  by_cases hb : s.cfg.variant.isByte = true
  · obtain ⟨-, -, -, hnone, -⟩ := h hb
    have ht : ByteForm (s.dmaTransfer t) := by
      rw [dmaTransfer_of_none t hnone]
      exact byteForm_congr (s := s) (by simp) (by simp) (by simp) (by simp) (by simp) (by simp)
        (State.rd_congr (by simp)) (by simp) h
    obtain ⟨-, he⟩ | ⟨-, he⟩ := dmaStepPlain_cases s t <;> rw [he]
    · intro hb'
      obtain ⟨ha, hk, hbuf, hd, -, hr, hv⟩ := ht (by simpa using hb)
      refine ⟨by simpa using ha, by simpa using hk, by simpa using hbuf, rfl, rfl,
        fun j hlo hhi => ?_, by simpa using hv⟩
      rw [dmaFinish_rd_of_none hd]
      split
      · rfl
      · split
        · rfl
        · exact hr j hlo hhi
    · exact ht
  · refine byteForm_of_word ?_
    obtain ⟨-, he⟩ | ⟨-, he⟩ := dmaStepPlain_cases s t <;> simpa [he] using hb

theorem byteForm_control : ControlKeeps ByteForm where
  scratch hn h := by rw [hn]; exact h
  data hd h hb := by
    obtain ⟨-, hk, -, ht, hf, hr, hv⟩ := h hb
    obtain ⟨ha, hbuf⟩ := hd hb
    exact ⟨ha, hk, hbuf, ht, hf, hr, hv⟩
  writeRegister i d t := byteForm_writeRegister i d t
  pointer hp h hb := by
    obtain ⟨-, -, hbuf, ht, hf, hr, hv⟩ := h hb
    obtain ⟨ha, hk⟩ := hp hb
    exact ⟨ha, hk, hbuf, ht, hf, hr, hv⟩
  relatch h := h
  request hm _ := byteForm_of_word (by simpa using State.isByte_of_m5 hm)

theorem byteForm_create (c : Config) : ByteForm (State.create c) := fun _ =>
  ⟨(by decide : (0#16).toNat < 16384), (by decide : (0#6).toNat < 4),
    (by decide : (0#16).toNat < 256), rfl, rfl, fun i _ _ => State.create_rd c i, rfl⟩

theorem byteForm_step : StepKeeps ByteForm where
  __ := byteForm_control.toAccessKeeps
  control hstep _ _ := byteForm_control.control hstep
  dmaStepPlain t := byteForm_dmaStepPlain t
  disarm h hb := by
    obtain ⟨ha, hk, hbuf, ht, -, hr, hv⟩ := h hb
    exact ⟨ha, hk, hbuf, ht, rfl, hr, hv⟩
  status _ h := h
  fifo _ _ h := h
  vramPut hi := byteForm_vramPut _ hi
  cramWrite i v := byteForm_congr (by simp) (by simp) (by simp) (by simp) (by simp) (by simp)
    (by simp) (by simp)
  vsramWrite a w h := h
  resetBlock {s} _ := byteForm_create s.cfg
  inbox _ h := h
  clean h := h

/-- Settles O57: no part that leaves the bounds runs on a byte variant. -/
theorem stepKeepsByteVariants : Obligations.StepKeepsByteVariants :=
  fun _ _ hs hn => byteForm_step.kept (fun h => h) hs hn

/-! ### The state after `create` (R44, R46) -/

/-- An invariant of the state after `create` has no snapshot pending. -/
theorem kept_create {P : State → Prop} {c : Config} (h : P (State.create c)) :
    Kept P (State.create c) := ⟨h, fun _ _ hx => by cases hx⟩

/-- Settles O60: every field is at its reset value and no event is issued. -/
theorem createMeetsInvariants : Obligations.CreateMeetsInvariants := by
  refine ⟨fun c => ⟨⟨rfl, rfl, rfl, rfl, rfl⟩, statusForm_zero, ?_, kept_create (dmaForm_create c),
    kept_create (byteForm_create c), cacheForm_create c⟩, rfl⟩
  exact kept_create ((fifoForm_iff _).mpr ⟨⟨Nat.zero_le 4, fun _ => rfl⟩, fifoLatency_create c⟩)

end Sys2Proof.Machine
end

section
/-! Proofs, the memory banks: what a store leaves in the bank it writes, in the SAT shadow and in the dirty set,
and that it changes nothing else (R72 to R80). -/

namespace Sys2Proof

/-- A read after two bytes are written side by side. -/
theorem Memory.read_write_pair (m : Memory) (a j : Nat) (v w : Byte) :
    ((m.write a v).write (a + 1) w).read j =
      if j = a then v else if j = a + 1 then w else m.read j := by
  simp only [Memory.read_write]
  split
  · rename_i hj
    rw [if_neg (by omega)]
  · rfl

end Sys2Proof

namespace Sys2Proof.Machine

/-! ### VRAM bytes (R72, R75, R76) -/

theorem State.logIdx_eq (s : State) (b : Word) :
    s.logIdx b = if s.cfg.variant = .v68k then b ^^^ 1#16 else b := by
  simp [State.logIdx, Variant.isWord_eq]

/-- The mirrored index of an element in the SAT's range, on the parameters (R75). -/
theorem State.mirrored_iff (s : State) (i : Word) (j : Nat) :
    s.inSat i = true ∧ j = s.satIdx i ↔
      s.satRange.1.toNat ≤ (s.logIdx i).toNat ∧
        (s.logIdx i).toNat < s.satRange.1.toNat + s.satRange.2 ∧
        j = (s.logIdx i).toNat - s.satRange.1.toNat := by
  rw [State.inSat_iff, State.satIdx, and_assoc]

theorem State.vramStore_of_same {s : State} {i : Word} {v : Byte} (h : s.vram.read i.toNat = v) :
    s.vramStore i v = s := if_pos h

theorem State.vramStore_of_ne {s : State} {i : Word} {v : Byte} (h : s.vram.read i.toNat ≠ v) :
    s.vramStore i v =
      { s with vram := s.vram.write i.toNat v, dirty := markTile (i.toNat / 32) s.dirty } :=
  if_neg h

theorem State.vramPut_vram (s : State) (i : Word) (v : Byte) :
    (s.vramPut i v).vram = (s.vramStore i v).vram := State.satMirror_vram _ i v

theorem State.vramPut_dirty (s : State) (i : Word) (v : Byte) :
    (s.vramPut i v).dirty = (s.vramStore i v).dirty := State.satMirror_dirty _ i v

/-- An identical byte changes neither VRAM nor the dirty set. -/
theorem State.vramPut_of_same {s : State} {i : Word} {v : Byte} (h : s.vram.read i.toNat = v) :
    (s.vramPut i v).vram = s.vram ∧ (s.vramPut i v).dirty = s.dirty := by
  rw [State.vramPut_vram, State.vramPut_dirty, State.vramStore_of_same h]
  exact ⟨rfl, rfl⟩

/-- A VRAM read after a byte store. -/
theorem State.read_vramPut (s : State) (i : Word) (v : Byte) (j : Nat) :
    (s.vramPut i v).vram.read j = if j = i.toNat then v else s.vram.read j := by
  rw [State.vramPut_vram]
  by_cases h : s.vram.read i.toNat = v
  · rw [State.vramStore_of_same h]
    split
    · rename_i hj
      rw [hj, h]
    · rfl
  · rw [State.vramStore_of_ne h]
    exact Memory.read_write _ _ _ _

/-- A byte store marks its tile exactly when it changes the byte. -/
theorem State.mem_vramPut_dirty (s : State) (i : Word) (v : Byte) (k : Nat) :
    k ∈ (s.vramPut i v).dirty ↔ k ∈ s.dirty ∨ (k = i.toNat / 32 ∧ s.vram.read i.toNat ≠ v) := by
  rw [State.vramPut_dirty]
  by_cases h : s.vram.read i.toNat = v
  · simp [State.vramStore_of_same h, h]
  · simp [State.vramStore_of_ne h, h, mem_markTile, or_comm]

/-- The SAT shadow after a byte store. -/
theorem State.sat_read_vramPut (s : State) (i : Word) (v : Byte) (j : Nat) :
    (s.vramPut i v).sat.read j =
      if s.inSat i = true ∧ j = s.satIdx i then v else s.sat.read j := by
  simp only [State.vramPut, State.satMirror_sat_read, State.vramStore_inSat,
    State.vramStore_satIdx, State.vramStore_sat]

/-- A byte store changes VRAM, the dirty set and the SAT shadow, and nothing else. -/
theorem State.vramPut_frame (s : State) (i : Word) (v : Byte) :
    s.vramPut i v =
      { s with
        vram := (s.vramPut i v).vram, dirty := (s.vramPut i v).dirty, sat := (s.vramPut i v).sat } := by
  unfold State.vramPut State.satMirror State.vramStore
  split <;> split <;> rfl

/-- Settles O3: the store by `read_vramPut`, the tile by `mem_vramPut_dirty`, the mirror by
`sat_read_vramPut`. -/
theorem vramPutStoresMarksMirrors : Obligations.VramPutStoresMarksMirrors := by
  intro s i v
  refine ⟨s.logIdx_eq, s.read_vramPut i v, fun h => ?_, fun h k => ?_, fun j => ?_,
    s.vramPut_frame i v⟩
  · exact State.vramPut_of_same h
  · simp [State.mem_vramPut_dirty, h, or_comm]
  · simp only [State.sat_read_vramPut, State.mirrored_iff]

/-! ### VRAM words (R77, R78, R85) -/

/-- The odd address of a word is its even one with bit 0 set (R77). -/
theorem evenAddr_succ (a : Word) : evenAddr a + 1#16 = a ||| 0x0001#16 := by
  unfold evenAddr
  rw [BitVec.add_eq_or_of_and_eq_zero _ _ (by rw [BitVec.and_assoc]; exact BitVec.and_zero)]
  ext i hi
  interval_cases i <;> simp

theorem State.logIdx_injective (s : State) {a b : Word} (h : s.logIdx a = s.logIdx b) : a = b := by
  unfold State.logIdx at h
  split at h
  · exact (BitVec.xor_left_inj 1#16).mp h
  · exact h

/-- The low byte of the stored word: of the given one, or its high byte at an odd address. -/
theorem loByte_vramWordAt (a w : Word) :
    loByte (vramWordAt a w) = if a.getLsbD 0 then hiByte w else loByte w := by
  unfold vramWordAt
  split
  · exact loByte_append _ _
  · rfl

theorem hiByte_vramWordAt (a w : Word) :
    hiByte (vramWordAt a w) = if a.getLsbD 0 then loByte w else hiByte w := by
  unfold vramWordAt
  split
  · exact hiByte_append _ _
  · rfl

section word

variable (s : State) (a w : Word)

/-- A VRAM read after a word write. -/
theorem State.read_vramWordWrite (j : Nat) :
    (s.vramWordWrite a w).vram.read j =
      if j = a.toNat / 2 * 2 then loByte (vramWordAt a w)
      else if j = a.toNat / 2 * 2 + 1 then hiByte (vramWordAt a w)
      else s.vram.read j := by
  simp only [State.vramWordWrite, State.read_vramPut, evenAddr_toNat, evenAddr_succ_toNat]
  split
  · rename_i hj
    rw [if_neg (by omega)]
  · rfl

/-- A word write marks the word's tile exactly when it changes a byte of the word. -/
theorem State.mem_vramWordWrite_dirty (k : Nat) :
    k ∈ (s.vramWordWrite a w).dirty ↔ k ∈ s.dirty ∨
      (k = a.toNat / 32 ∧
        (s.vram.read (a.toNat / 2 * 2) ≠ loByte (vramWordAt a w) ∨
          s.vram.read (a.toNat / 2 * 2 + 1) ≠ hiByte (vramWordAt a w))) := by
  have hlo : a.toNat / 2 * 2 / 32 = a.toNat / 32 := by omega
  have hhi : (a.toNat / 2 * 2 + 1) / 32 = a.toNat / 32 := by omega
  simp only [State.vramWordWrite, State.mem_vramPut_dirty, State.read_vramPut, evenAddr_toNat,
    evenAddr_succ_toNat, hlo, hhi, Nat.succ_ne_self, if_false]
  tauto

/-- A word whose bytes both match is stored by two puts that store nothing. -/
theorem State.vramWordWrite_of_same
    (hlo : s.vram.read (a.toNat / 2 * 2) = loByte (vramWordAt a w))
    (hhi : s.vram.read (a.toNat / 2 * 2 + 1) = hiByte (vramWordAt a w)) :
    (s.vramWordWrite a w).vram = s.vram ∧ (s.vramWordWrite a w).dirty = s.dirty := by
  rw [← evenAddr_toNat] at hlo
  rw [← evenAddr_succ_toNat] at hhi
  obtain ⟨hv, hd⟩ := State.vramPut_of_same hlo
  rw [← hv] at hhi
  obtain ⟨hv', hd'⟩ := State.vramPut_of_same hhi
  exact ⟨hv'.trans hv, hd'.trans hd⟩

/-- The SAT shadow after a word write: the two bytes mirror to different indices. -/
theorem State.sat_read_vramWordWrite (j : Nat) :
    (s.vramWordWrite a w).sat.read j =
      if s.inSat (evenAddr a) = true ∧ j = s.satIdx (evenAddr a) then loByte (vramWordAt a w)
      else if s.inSat (evenAddr a + 1#16) = true ∧ j = s.satIdx (evenAddr a + 1#16) then
        hiByte (vramWordAt a w)
      else s.sat.read j := by
  simp only [State.vramWordWrite, State.sat_read_vramPut, State.vramPut_inSat,
    State.vramPut_satIdx]
  by_cases hlo : s.inSat (evenAddr a) = true ∧ j = s.satIdx (evenAddr a)
  · have hhi : ¬ (s.inSat (evenAddr a + 1#16) = true ∧ j = s.satIdx (evenAddr a + 1#16)) := by
      intro hhi
      rw [State.mirrored_iff] at hlo hhi
      have he : s.logIdx (evenAddr a) = s.logIdx (evenAddr a + 1#16) :=
        BitVec.eq_of_toNat_eq (by omega)
      have := congrArg BitVec.toNat (s.logIdx_injective he)
      rw [evenAddr_toNat, evenAddr_succ_toNat] at this
      omega
    rw [if_neg hhi, if_pos hlo, if_pos hlo]
  · simp only [if_neg hlo]

theorem State.vramWordWrite_frame :
    s.vramWordWrite a w =
      { s with
        vram := (s.vramWordWrite a w).vram
        dirty := (s.vramWordWrite a w).dirty
        sat := (s.vramWordWrite a w).sat } := by
  unfold State.vramWordWrite
  rw [State.vramPut_frame (s.vramPut _ _), State.vramPut_frame s]

/-- A word read gives the stored word back at both of its addresses. -/
theorem State.vramWordRead_vramWordWrite {b : Word} (h : b.toNat / 2 = a.toNat / 2) :
    (s.vramWordWrite a w).vramWordRead b = vramWordAt a w := by
  simp only [State.vramWordRead, State.read_vramWordWrite, evenAddr_toNat, evenAddr_succ_toNat, h,
    Nat.succ_ne_self, if_true, if_false]
  exact hiByte_append_loByte _

end word

/-- Settles O4: the two puts of a word go to different bytes of one tile, and mirror to different indices. -/
theorem vramWordsAreLittleEndian : Obligations.VramWordsAreLittleEndian := by
  rintro s a w lo hi l h base hlo hhi rfl rfl rfl
  rw [← evenAddr_succ]
  obtain rfl : lo = loByte (vramWordAt a w) := by rw [hlo, loByte_vramWordAt, loByte, hiByte]
  obtain rfl : hi = hiByte (vramWordAt a w) := by rw [hhi, hiByte_vramWordAt, loByte, hiByte]
  refine ⟨s.read_vramWordWrite a w, s.mem_vramWordWrite_dirty a w, s.vramWordWrite_of_same a w,
    fun j => ?_, s.vramWordWrite_frame a w, fun b hb => s.vramWordRead_vramWordWrite a w hb⟩
  simp only [State.sat_read_vramWordWrite, State.mirrored_iff]
  rfl

/-! ### CRAM entries (R43, R79, R182) -/

/-- A CRAM read after an entry is stored. -/
theorem read_cramStore (m : Memory) (i : BitVec 6) (v : Colour) (j : Nat) :
    (cramStore m i v).read j =
      if j = 2 * i.toNat then v.extractLsb' 0 8
      else if j = 2 * i.toNat + 1 then (v.extractLsb' 8 1).setWidth 8
      else m.read j := Memory.read_write_pair m _ j _ _

theorem cramEntry_cramStore (m : Memory) (i k : BitVec 6) (v : Colour) :
    cramEntry (cramStore m i v) k = if k = i then v else cramEntry m k := by
  split
  · rename_i h
    simp only [h, cramEntry, read_cramStore, Nat.succ_ne_self, if_true, if_false]
    exact colour_of_bytes v
  · rename_i h
    exact cramEntry_cramStore_other m v h

/-- A CRAM write as one record. -/
theorem State.cramWrite_eq (s : State) (i : BitVec 6) (v : Colour) :
    s.cramWrite i v =
      { s with
        cram := cramStore s.cram i v
        backdropColor := if i = s.backdropIdx then v else s.backdropColor } := by
  unfold State.cramWrite
  split
  · rename_i h
    have hb : cramEntry (cramStore s.cram i v) s.backdropIdx = v := by
      rw [cramEntry_cramStore, if_pos h.symm]
    exact congrArg (fun c => { s with cram := cramStore s.cram i v, backdropColor := c }) hb
  · rfl

/-- Settles O5: the record `cramWrite_eq` says, and the entries of the stored bank. -/
theorem cramWriteStoresEntry : Obligations.CramWriteStoresEntry := by
  intro s i v
  rw [State.cramWrite_eq]
  exact ⟨read_cramStore s.cram i v, fun k => cramEntry_cramStore s.cram i k v, rfl, rfl⟩

/-! ### VSRAM words (R80) -/

/-- A VSRAM read after a word write. -/
theorem State.read_vsramWrite (s : State) (a w : Word) (j : Nat) :
    (s.vsramWrite a w).vsram.read j =
      if j = vsramIdx a then loByte w
      else if j = vsramIdx a + 1 then hiByte w
      else s.vsram.read j := Memory.read_write_pair s.vsram _ j _ _

/-- A VSRAM word read after a word write: words overlap only where they are the same (R80). -/
theorem State.vsramRead_vsramWrite (s : State) (a b w : Word) :
    (s.vsramWrite a w).vsramRead b = if vsramIdx b = vsramIdx a then w else s.vsramRead b := by
  simp only [State.vsramRead, State.read_vsramWrite]
  by_cases h : vsramIdx b = vsramIdx a
  · simp only [h, Nat.succ_ne_self, if_true, if_false]
    exact hiByte_append_loByte w
  · have ha := vsramIdx_eq a
    have hb := vsramIdx_eq b
    have hodd : vsramIdx b + 1 ≠ vsramIdx a := by omega
    have heven : vsramIdx b ≠ vsramIdx a + 1 := by omega
    simp only [h, hodd, heven, Nat.succ_inj, if_false]

/-- Settles O6: `vsramIdx_eq` gives the index of a word on the address bits. -/
theorem vsramWordsByAddressBits : Obligations.VsramWordsByAddressBits := by
  intro s a w
  refine ⟨fun j => ?_, fun b => ?_, rfl⟩
  · rw [← vsramIdx_eq]
    exact s.read_vsramWrite a w j
  · rw [State.vsramRead_vsramWrite, vsramIdx_eq, vsramIdx_eq]
    simp

end Sys2Proof.Machine
end

section
/-! Proofs, the reads and the step: the fields each kind of read can change (R87), and the step on an access
that decodes (R88). -/

namespace Sys2Proof.Machine

/-! ### What each kind of read leaves unchanged (R87): none is a control write, so those cases of its work
cannot hold -/

/-- A FIFO update as one record (R242). -/
theorem State.fifoUpdate_frame (t : Nat) (s : State) :
    s.fifoUpdate t =
      { s with
        fifoCount := (s.fifoUpdate t).fifoCount
        fifoLastWrite := (s.fifoUpdate t).fifoLastWrite } := by
  unfold State.fifoUpdate
  split <;> rfl

/-- What a status read leaves, as one record (R210, R211, R242, R279). -/
theorem State.statusRead_frame (t : Nat) (s : State) :
    (s.statusUpdate t).statusClear.drawn =
      { s with
        pending := false
        status := (s.statusUpdate t).status &&& 0xFF1F#16
        fifoCount := (s.fifoUpdate t).fifoCount
        fifoLastWrite := (s.fifoUpdate t).fifoLastWrite
        draws := s.draws + 1 } := by
  unfold State.statusUpdate
  rw [State.dmaBusyUpdate_eq, State.fifoUpdate_frame]
  rfl

section

variable {i : Instr} {t : Nat} {s n : State}

/-- A data read changes the address, the buffer and `pending`, and may leave the CPU stuck (R190, R196,
R198). -/
theorem dataRead_frame (hi : i ∈ [.dataR16 t, .dataR8 t]) (h : exec i s = .next n) :
    n = { s with
      addr := n.addr, pending := n.pending, readBuf := n.readBuf, lastT := n.lastT
      cpuStuck := n.cpuStuck, draws := n.draws, out := n.out } := by
  obtain ⟨u, o, rfl, hw⟩ := exec_eq_next h
  simp only [List.mem_cons, List.not_mem_nil, or_false] at hi
  obtain rfl | rfl := hi
  · cases hw with
    | stuck _ _ => rfl
    | dataR16 _ _ => rw [State.refill16_eq]
    | _ => contradiction
  · cases hw with
    | dataR8 _ => rfl
    | _ => contradiction

/-- A status read changes the status word, the FIFO's count and clock, and `pending` (R210, R211). -/
theorem statusRead_frame (hi : i ∈ [.ctrlR16 t, .ctrlR8 t]) (h : exec i s = .next n) :
    n = { s with
      pending := n.pending, status := n.status, fifoCount := n.fifoCount
      fifoLastWrite := n.fifoLastWrite, lastT := n.lastT, draws := n.draws, out := n.out } := by
  obtain ⟨u, o, rfl, hw⟩ := exec_eq_next h
  simp only [List.mem_cons, List.not_mem_nil, or_false] at hi
  obtain rfl | rfl := hi
  · cases hw with
    | ctrlR16 => rw [State.statusRead_frame]
    | _ => contradiction
  · cases hw with
    | ctrlR8 => rw [State.statusRead_frame]
    | _ => contradiction

/-- An HV or counter read changes the kept timestamp and the output (R220, R226, R227). -/
theorem counterRead_frame (hi : i ∈ [.hvR16 t, .vR8 t, .hR8 t]) (h : exec i s = .next n) :
    n = { s with lastT := n.lastT, out := n.out } := by
  obtain ⟨u, o, rfl, hw⟩ := exec_eq_next h
  simp only [List.mem_cons, List.not_mem_nil, or_false] at hi
  obtain rfl | rfl | rfl := hi
  · cases hw with
    | hvR16 => rfl
    | _ => contradiction
  · cases hw with
    | vR8 _ => rfl
    | _ => contradiction
  · cases hw with
    | hR8 _ => rfl
    | _ => contradiction

/-- All the fields a read can change, whichever it is (R87). -/
theorem read_frame
    (hi : i ∈ [.dataR16 t, .dataR8 t, .ctrlR16 t, .ctrlR8 t, .hvR16 t, .vR8 t, .hR8 t])
    (h : exec i s = .next n) :
    n = { s with
      addr := n.addr, pending := n.pending, readBuf := n.readBuf, status := n.status
      fifoCount := n.fifoCount, fifoLastWrite := n.fifoLastWrite, lastT := n.lastT
      cpuStuck := n.cpuStuck, draws := n.draws, out := n.out } := by
  have hk : i ∈ [.dataR16 t, .dataR8 t] ++ ([.ctrlR16 t, .ctrlR8 t] ++ [.hvR16 t, .vR8 t, .hR8 t]) :=
    hi
  rw [List.mem_append, List.mem_append] at hk
  obtain hd | hs | hc := hk
  · rw [dataRead_frame hd h]
  · rw [statusRead_frame hs h]
  · rw [counterRead_frame hc h]

end

/-- Settles O36: the frame all reads share, and the one of each kind. -/
theorem readFrame : Obligations.ReadFrame := by
  intro i t s n hi h
  rw [read_frame hi h]
  refine ⟨rfl, fun _ => rfl, fun _ => rfl, fun _ => rfl, fun _ => rfl, rfl, rfl, rfl, rfl, rfl,
    rfl, rfl, rfl, rfl, rfl, rfl, rfl, rfl, rfl, rfl, rfl, fun hs => ?_, fun hd => ?_, fun hc => ?_⟩
  · rw [statusRead_frame hs h]
    exact ⟨rfl, rfl⟩
  · rw [dataRead_frame hd h]
    exact ⟨rfl, rfl⟩
  · rw [counterRead_frame hc h]

/-! ### The step (R88, R100, R114, R306) -/

section

variable {s : State} {rest : List Event}

theorem step_of_op {a : Access} (hb : s.inbox = .op a :: rest) (hh : heldBack a s = false)
    {i : Instr} (hd : decode s.cfg.variant s.pending a = .ok i) :
    step s = exec i { s with inbox := rest } := by
  simp [step, hb, hh, hd]

theorem step_of_render {c : Bool} (hb : s.inbox = .render c :: rest) :
    step s = rendererTurn c { s with inbox := rest } := by
  simp [step, hb]

theorem step_of_nil (hb : s.inbox = []) : step s = idle s := by
  simp [step, hb]

theorem heldBack_iff (a : Access) (s : State) :
    heldBack a s = true ↔ a.fromCpu = true ∧ s.cpuStuck = true := by
  simp [heldBack]

theorem rendererTurn_ready (c : Bool) (hf : s.faulted = none) (hr : s.refused = none) :
    rendererTurn c s = .next { s with dirty := if c then [] else s.dirty } := by
  rw [rendererTurn, idle_ready hf hr]
  cases c <;> rfl

end

/-- Settles O12: one equation of the step for each head of the inbox. -/
theorem stepRunsTheDecodedOperation : Obligations.StepRunsTheDecodedOperation := by
  refine ⟨fun s a rest i hb hh hd => ?_, fun s rest c hf hr hb => ?_, fun s hf hr hb => ?_⟩
  · rw [← heldBack_iff, Bool.not_eq_true] at hh
    exact step_of_op hb hh hd
  · rw [step_of_render hb]
    exact rendererTurn_ready c hf hr
  · rw [step_of_nil hb]
    exact idle_ready hf hr

end Sys2Proof.Machine
end

section
/-! Proofs, the encoding (R100 to R119): what the decoder reads from each port's access, that each format's
fields are read back from its word and put together to it again, and the two round trips. -/

namespace Sys2Proof

/-! ### The access to each port (R107, R114) -/

section ports

variable {v : Variant} (pending : Bool) (w : Word) (b : Byte) (t : Nat)

theorem decode_write16_control (hv : v.isWord = true) :
    decode v pending (.write16 .control w t) = .ok (decodeControl16 pending w t) := by
  simp [decode, decodeWrite16, Variant.isByte_of_isWord hv]

theorem decode_write16_data (hv : v.isWord = true) :
    decode v pending (.write16 .data w t) = .ok (.dataW16 w t) := by
  simp [decode, decodeWrite16, Variant.isByte_of_isWord hv]

theorem decode_read16_control (hv : v.isWord = true) :
    decode v pending (.read16 .control t) = .ok (.ctrlR16 t) := by
  simp [decode, decodeRead16, Variant.isByte_of_isWord hv]

theorem decode_read16_data (hv : v.isWord = true) :
    decode v pending (.read16 .data t) = .ok (.dataR16 t) := by
  simp [decode, decodeRead16, Variant.isByte_of_isWord hv]

theorem decode_read16_hv (hv : v.isWord = true) :
    decode v pending (.read16 .hv t) = .ok (.hvR16 t) := by
  simp [decode, decodeRead16, Variant.isByte_of_isWord hv]

theorem decode_write8_control (hv : v.isByte = true) :
    decode v pending (.write8 .control b t) = .ok (decodeControl8 v pending b t) := by
  simp [decode, decodeWrite8, hv]

theorem decode_write8_data (hv : v.isByte = true) :
    decode v pending (.write8 .data b t) = .ok (.dataW8 b t) := by
  simp [decode, decodeWrite8, hv]

theorem decode_read8_control (hv : v.isByte = true) :
    decode v pending (.read8 .control t) = .ok (.ctrlR8 t) := by
  simp [decode, decodeRead8, hv]

theorem decode_read8_data (hv : v.isByte = true) :
    decode v pending (.read8 .data t) = .ok (.dataR8 t) := by
  simp [decode, decodeRead8, hv]

theorem decode_read8_vCounter (hv : v.isByte = true) :
    decode v pending (.read8 .vCounter t) = .ok (.vR8 t) := by
  simp [decode, decodeRead8, hv]

theorem decode_read8_hCounter (hv : v.isByte = true) :
    decode v pending (.read8 .hCounter t) = .ok (.hR8 t) := by
  simp [decode, decodeRead8, hv]

end ports

/-- Settles O10: the decoder's answer at each port. -/
theorem everyPortAccessDecodes : Obligations.EveryPortAccessDecodes := by
  refine ⟨fun pending w t => ?_, fun v pending b t hv => ?_⟩
  · have hw : Variant.v68k.isWord = true := rfl
    exact ⟨⟨_, decode_write16_control pending w t hw⟩, decode_write16_data pending w t hw,
      decode_read16_control pending t hw, decode_read16_data pending t hw,
      decode_read16_hv pending t hw⟩
  · exact ⟨⟨_, decode_write8_control pending b t hv⟩, decode_write8_data pending b t hv,
      decode_read8_control pending t hv, decode_read8_data pending t hv,
      decode_read8_vCounter pending t hv, decode_read8_hCounter pending t hv⟩

/-- Settles O9: the decoder evaluated on the words and bytes. -/
theorem workedEncodingsDecode : Obligations.WorkedEncodingsDecode := by
  unfold Obligations.WorkedEncodingsDecode
  decide

/-! ### The formats' fields read back (R101 to R106) -/

/-- A field of a word, as a number. -/
theorem extractLsb'_eq_iff {n m i : Nat} (w : BitVec n) (x : BitVec m) :
    w.extractLsb' i m = x ↔ w.toNat / 2 ^ i % 2 ^ m = x.toNat := by
  rw [BitVec.toNat_eq, BitVec.extractLsb'_toNat, Nat.shiftRight_eq_div_pow]

theorem wordRw_fields (ign : BitVec 1) (idx : BitVec 5) (data : Byte) :
    (wordRw ign idx data).extractLsb' 14 2 = 0b10#2 ∧
      (wordRw ign idx data).extractLsb' 13 1 = ign ∧
      (wordRw ign idx data).extractLsb' 8 5 = idx ∧
      (wordRw ign idx data).extractLsb' 0 8 = data := by
  simp only [wordRw, extractLsb'_eq_iff, Machine.append_toNat, BitVec.toNat_ofNat]
  omega

theorem wordA1_fields (cd : BitVec 2) (a : BitVec 14) :
    (wordA1 cd a).extractLsb' 14 2 = cd ∧ (wordA1 cd a).extractLsb' 0 14 = a := by
  simp only [wordA1, extractLsb'_eq_iff, Machine.append_toNat]
  omega

theorem wordA2_fields (hi : BitVec 8) (cd : BitVec 4) (mid a : BitVec 2) :
    (wordA2 hi cd mid a).extractLsb' 8 8 = hi ∧
      (wordA2 hi cd mid a).extractLsb' 4 4 = cd ∧
      (wordA2 hi cd mid a).extractLsb' 2 2 = mid ∧
      (wordA2 hi cd mid a).extractLsb' 0 2 = a := by
  simp only [wordA2, extractLsb'_eq_iff, Machine.append_toNat]
  omega

theorem byteB2Addr_fields (cd : BitVec 2) (a : BitVec 6) :
    (byteB2Addr cd a).extractLsb' 6 2 = cd ∧ (byteB2Addr cd a).extractLsb' 0 6 = a := by
  simp only [byteB2Addr, extractLsb'_eq_iff, Machine.append_toNat]
  omega

theorem byteB2Reg_fields (a : BitVec 6) :
    (byteB2Reg a).extractLsb' 6 2 = 0b10#2 ∧ (byteB2Reg a).extractLsb' 0 6 = a :=
  byteB2Addr_fields 0b10#2 a

theorem byteT2Addr_fields (rw : BitVec 1) (a : BitVec 6) :
    (byteT2Addr rw a).extractLsb' 7 1 = 0b0#1 ∧
      (byteT2Addr rw a).extractLsb' 6 1 = rw ∧
      (byteT2Addr rw a).extractLsb' 0 6 = a := by
  simp only [byteT2Addr, extractLsb'_eq_iff, Machine.append_toNat, BitVec.toNat_ofNat]
  omega

theorem byteT2Reg_fields (ign : BitVec 4) (idx : BitVec 3) :
    (byteT2Reg ign idx).extractLsb' 7 1 = 0b1#1 ∧
      (byteT2Reg ign idx).extractLsb' 3 4 = ign ∧
      (byteT2Reg ign idx).extractLsb' 0 3 = idx := by
  simp only [byteT2Reg, extractLsb'_eq_iff, Machine.append_toNat, BitVec.toNat_ofNat]
  omega

/-! ### Each format decodes to its operation (R100 to R106) -/

section formats

variable (t : Nat)

theorem decodeControl16_wordRw (ign : BitVec 1) (idx : BitVec 5) (data : Byte) :
    decodeControl16 false (wordRw ign idx data) t = .ctrlRw ign idx data t := by
  simp [decodeControl16, wordRw_fields]

/-- The code bits of a first address word are no `10`, so it is no register write (R102). -/
theorem decodeControl16_wordA1 {cd : BitVec 2} (a : BitVec 14) (hcd : cd ≠ 0b10#2) :
    decodeControl16 false (wordA1 cd a) t = .ctrlA1 cd a t := by
  simp [decodeControl16, wordA1_fields, hcd]

theorem decodeControl16_wordA2 (hi : BitVec 8) (cd : BitVec 4) (mid a : BitVec 2) :
    decodeControl16 true (wordA2 hi cd mid a) t = .ctrlA2 hi cd mid a t := by
  simp [decodeControl16, wordA2_fields]

theorem decodeControl8_first (v : Variant) (b : Byte) :
    decodeControl8 v false b t = .ctrlB1 b t := rfl

/-- The code bits of a second address byte are no `10`, so it is no register write (R105). -/
theorem decodeControl8_byteB2Addr {v : Variant} {cd : BitVec 2} (a : BitVec 6)
    (hv : v.isTms = false) (hcd : cd ≠ 0b10#2) :
    decodeControl8 v true (byteB2Addr cd a) t = .ctrlB2Addr cd a t := by
  simp [decodeControl8, hv, byteB2Addr_fields, hcd]

theorem decodeControl8_byteB2Reg {v : Variant} (a : BitVec 6) (hv : v.isTms = false) :
    decodeControl8 v true (byteB2Reg a) t = .ctrlB2Reg a t := by
  simp [decodeControl8, hv, byteB2Reg_fields]

theorem decodeControl8_byteT2Addr {v : Variant} (rw : BitVec 1) (a : BitVec 6)
    (hv : v.isTms = true) :
    decodeControl8 v true (byteT2Addr rw a) t = .ctrlT2Addr rw a t := by
  have htop : (byteT2Addr rw a).getLsbD 7 = false := by
    rw [BitVec.getLsbD_eq_extractLsb', (byteT2Addr_fields rw a).1]
    rfl
  simp only [decodeControl8, hv, htop, byteT2Addr_fields, if_true, Bool.false_eq_true, if_false]

theorem decodeControl8_byteT2Reg {v : Variant} (ign : BitVec 4) (idx : BitVec 3)
    (hv : v.isTms = true) :
    decodeControl8 v true (byteT2Reg ign idx) t = .ctrlT2Reg ign idx t := by
  have htop : (byteT2Reg ign idx).getLsbD 7 = true := by
    rw [BitVec.getLsbD_eq_extractLsb', (byteT2Reg_fields ign idx).1]
    rfl
  simp only [decodeControl8, hv, htop, byteT2Reg_fields, if_true]

end formats

theorem Variant.isTms_of_isZ80 {v : Variant} (hv : v.isZ80 = true) : v.isTms = false := by
  rw [Variant.isZ80_eq] at hv
  simp_all

/-- Settles O7: at each constructor, the access is one of its port's, and a control format's fields are read
back from its word. -/
theorem decodeOfEncode : Obligations.DecodeOfEncode := by
  intro i v pending hwf hv hp
  cases i with
  | ctrlRw ign idx data t =>
    obtain rfl : pending = false := by simpa [Instr.atPhase] using hp
    rw [encode, decode_write16_control _ _ _ hv, decodeControl16_wordRw]
  | ctrlA1 cd a t =>
    obtain rfl : pending = false := by simpa [Instr.atPhase] using hp
    rw [encode, decode_write16_control _ _ _ hv, decodeControl16_wordA1 t a (of_decide_eq_true hwf)]
  | ctrlA2 hi cd mid a t =>
    obtain rfl : pending = true := hp
    rw [encode, decode_write16_control _ _ _ hv, decodeControl16_wordA2]
  | ctrlB1 b t =>
    obtain rfl : pending = false := by simpa [Instr.atPhase] using hp
    rw [encode, decode_write8_control _ _ _ hv, decodeControl8_first]
  | ctrlB2Addr cd a t =>
    obtain rfl : pending = true := hp
    rw [encode, decode_write8_control _ _ _ (Laws.isZ80_isByte v hv),
      decodeControl8_byteB2Addr t a (Variant.isTms_of_isZ80 hv) (of_decide_eq_true hwf)]
  | ctrlB2Reg a t =>
    obtain rfl : pending = true := hp
    rw [encode, decode_write8_control _ _ _ (Laws.isZ80_isByte v hv),
      decodeControl8_byteB2Reg t a (Variant.isTms_of_isZ80 hv)]
  | ctrlT2Addr rw a t =>
    obtain rfl : pending = true := hp
    rw [encode, decode_write8_control _ _ _ (Laws.isTms_isByte v hv),
      decodeControl8_byteT2Addr t rw a hv]
  | ctrlT2Reg ign idx t =>
    obtain rfl : pending = true := hp
    rw [encode, decode_write8_control _ _ _ (Laws.isTms_isByte v hv),
      decodeControl8_byteT2Reg t ign idx hv]
  | dataW16 w t => exact decode_write16_data pending w t hv
  | dataW8 b t => exact decode_write8_data pending b t hv
  | dataR16 t => exact decode_read16_data pending t hv
  | dataR8 t => exact decode_read8_data pending t hv
  | ctrlR16 t => exact decode_read16_control pending t hv
  | ctrlR8 t => exact decode_read8_control pending t hv
  | hvR16 t => exact decode_read16_hv pending t hv
  | vR8 t => exact decode_read8_vCounter pending t hv
  | hR8 t => exact decode_read8_hCounter pending t hv
  | advance t => rfl
  | latchHv t => rfl
  | raster sm cm t => rfl
  | reset t => rfl
  | serialize t => rfl
  | deserialize x t => exact if_pos hwf

/-! ### The access put together again (R101 to R107) -/

/-- An operation is one an access can have been read as: it encodes to the access, its fields are in form,
and it belongs to the variant and the phase. -/
def ReadFrom (v : Variant) (pending : Bool) (a : Access) (i : Instr) : Prop :=
  encode i = a ∧ i.WellFormed ∧ i.on v = true ∧ i.atPhase pending = true

section readFrom

variable {v : Variant} {pending : Bool} {p : Port} {i : Instr} {t : Nat}

/-- The fields of a control word are all its bits, the `10` of a register write with them. -/
theorem encode_decodeControl16 (pending : Bool) (w : Word) (t : Nat) :
    encode (decodeControl16 pending w t) = .write16 .control w t := by
  unfold decodeControl16
  split
  · simp only [encode, wordA2, BitVec.extractLsb'_append_extractLsb'_eq_extractLsb',
      BitVec.extractLsb'_eq_self]
  · split
    · rename_i hcd
      simp only [encode, wordRw, ← hcd, BitVec.extractLsb'_append_extractLsb'_eq_extractLsb',
        BitVec.extractLsb'_eq_self]
    · simp only [encode, wordA1, BitVec.extractLsb'_append_extractLsb'_eq_extractLsb',
        BitVec.extractLsb'_eq_self]

/-- The fields of a control byte are all its bits, the fixed top bits of a format with them. -/
theorem encode_decodeControl8 (v : Variant) (pending : Bool) (b : Byte) (t : Nat) :
    encode (decodeControl8 v pending b t) = .write8 .control b t := by
  unfold decodeControl8
  simp only [BitVec.getLsbD_eq_extractLsb', beq_iff_eq]
  split
  · split
    · split
      · rename_i htop
        simp only [encode, byteT2Reg, ← htop,
          BitVec.extractLsb'_append_extractLsb'_eq_extractLsb', BitVec.extractLsb'_eq_self]
      · rename_i htop
        have htop : b.extractLsb' 7 1 = 0b0#1 :=
          (BitVec.eq_zero_or_eq_one _).resolve_right htop
        simp only [encode, byteT2Addr, ← htop,
          BitVec.extractLsb'_append_extractLsb'_eq_extractLsb', BitVec.extractLsb'_eq_self]
    · split
      · rename_i hcd
        simp only [encode, byteB2Reg, ← hcd,
          BitVec.extractLsb'_append_extractLsb'_eq_extractLsb', BitVec.extractLsb'_eq_self]
      · simp only [encode, byteB2Addr,
          BitVec.extractLsb'_append_extractLsb'_eq_extractLsb', BitVec.extractLsb'_eq_self]
  · rfl

theorem decodeControl16_wellFormed (pending : Bool) (w : Word) (t : Nat) :
    (decodeControl16 pending w t).WellFormed := by
  unfold decodeControl16
  split
  · rfl
  · split
    · rfl
    · exact decide_eq_true ‹_›

theorem decodeControl16_atPhase (pending : Bool) (w : Word) (t : Nat) :
    (decodeControl16 pending w t).atPhase pending = true := by
  cases pending with
  | true => rfl
  | false => simp only [decodeControl16, Bool.false_eq_true, if_false]; split <;> rfl

theorem decodeControl8_wellFormed (v : Variant) (pending : Bool) (b : Byte) (t : Nat) :
    (decodeControl8 v pending b t).WellFormed := by
  unfold decodeControl8
  split
  · split
    · split <;> rfl
    · split
      · rfl
      · exact decide_eq_true ‹_›
  · rfl

theorem decodeControl8_atPhase (v : Variant) (pending : Bool) (b : Byte) (t : Nat) :
    (decodeControl8 v pending b t).atPhase pending = true := by
  cases pending with
  | true => simp only [decodeControl8, if_true]; split <;> split <;> rfl
  | false => rfl

theorem decodeWrite16_readFrom {w : Word} (h : decodeWrite16 v pending p w t = .ok i) :
    ReadFrom v pending (.write16 p w t) i := by
  unfold decodeWrite16 at h
  split at h
  · cases h
  · rename_i hb
    have hw : v.isWord = true := by simpa [Variant.isByte_eq] using hb
    cases p with
    | control =>
      cases h
      exact ⟨encode_decodeControl16 pending w t, decodeControl16_wellFormed pending w t,
        decodeControl16_on pending w t hw, decodeControl16_atPhase pending w t⟩
    | data => cases h; exact ⟨rfl, rfl, hw, rfl⟩
    | hv => cases h
    | vCounter => cases h
    | hCounter => cases h

theorem decodeWrite8_readFrom {b : Byte} (h : decodeWrite8 v pending p b t = .ok i) :
    ReadFrom v pending (.write8 p b t) i := by
  unfold decodeWrite8 at h
  split at h
  · rename_i hb
    cases p with
    | control =>
      cases h
      exact ⟨encode_decodeControl8 v pending b t, decodeControl8_wellFormed v pending b t,
        decodeControl8_on pending b t hb, decodeControl8_atPhase v pending b t⟩
    | data => cases h; exact ⟨rfl, rfl, hb, rfl⟩
    | hv => cases h
    | vCounter => cases h
    | hCounter => cases h
  · cases p <;> cases h

theorem decodeRead16_readFrom (h : decodeRead16 v p t = .ok i) :
    ReadFrom v pending (.read16 p t) i := by
  unfold decodeRead16 at h
  split at h
  · cases h
  · rename_i hb
    have hw : v.isWord = true := by simpa [Variant.isByte_eq] using hb
    cases p with
    | control => cases h; exact ⟨rfl, rfl, hw, rfl⟩
    | data => cases h; exact ⟨rfl, rfl, hw, rfl⟩
    | hv => cases h; exact ⟨rfl, rfl, hw, rfl⟩
    | vCounter => cases h
    | hCounter => cases h

theorem decodeRead8_readFrom (h : decodeRead8 v p t = .ok i) :
    ReadFrom v pending (.read8 p t) i := by
  unfold decodeRead8 at h
  split at h
  · rename_i hb
    cases p with
    | control => cases h; exact ⟨rfl, rfl, hb, rfl⟩
    | data => cases h; exact ⟨rfl, rfl, hb, rfl⟩
    | hv => cases h
    | vCounter => cases h; exact ⟨rfl, rfl, hb, rfl⟩
    | hCounter => cases h; exact ⟨rfl, rfl, hb, rfl⟩
  · cases p <;> cases h

end readFrom

/-- Every variant takes the host operations (R114). -/
theorem Variant.isAny_eq (v : Variant) : v.isAny = true := by cases v <;> rfl

/-- Settles O8: at each access, every answer of its decoder is read from it. -/
theorem encodeOfDecode : Obligations.EncodeOfDecode := by
  intro a v pending i h
  have hany := Variant.isAny_eq v
  cases a with
  | write16 p w t => exact decodeWrite16_readFrom h
  | write8 p b t => exact decodeWrite8_readFrom h
  | read16 p t => exact decodeRead16_readFrom h
  | read8 p t => exact decodeRead8_readFrom h
  | advance t => cases h; exact ⟨rfl, rfl, hany, rfl⟩
  | latchHv t => cases h; exact ⟨rfl, rfl, hany, rfl⟩
  | raster sm cm t => cases h; exact ⟨rfl, rfl, hany, rfl⟩
  | reset t => cases h; exact ⟨rfl, rfl, hany, rfl⟩
  | serialize t => cases h; exact ⟨rfl, rfl, hany, rfl⟩
  | deserialize x t =>
    simp only [decode] at h
    split at h
    · rename_i hx
      cases h
      exact ⟨rfl, hx, hany, rfl⟩
    · cases h

end Sys2Proof
end

section
/-! Proofs, the accesses with no meaning and the bits with none: when an access that is no operation is refused,
that a control write that runs does not look at the word it would be deferred as, and the two halves of
a 68000 address (R84, R111, R115, R117). -/

namespace Sys2Proof.Machine

/-! ### The accesses with no meaning (R117, R324, R326) -/

section reject

variable {s : State} {a : Access}

/-- An access that is no operation is refused by the decoder's name for it, where nothing comes first
(R326). -/
theorem rejectAccess_ready (r : Reject) (h : PortReady s a.time) :
    rejectAccess a r s = .refused (refusalOf r) := by
  obtain ⟨⟨hr, hc⟩, hu⟩ := h
  rw [rejectAccess, enter_ready hr fun _ => hc, andThen_next]
  cases a.fromCpu <;> simp [unfrozen, hu, refuse]

/-- While VBusToVram holds the CPU an access of it that is no operation faults (R278; log entry 13). -/
theorem rejectAccess_frozen (r : Reject) (ha : a.fromCpu = true) (h : CpuReady s a.time)
    (hd : s.dmaType = some .vbusToVram) : rejectAccess a r s = .fault .accessWhileFrozen := by
  rw [rejectAccess, enter_ready h.1 fun _ => h.2, andThen_next, if_pos ha]
  simp [unfrozen, hd]

theorem step_of_reject {r : Reject} {rest : List Event} (hb : s.inbox = .op a :: rest)
    (hc : s.cpuStuck = false) (hd : decode s.cfg.variant s.pending a = .error r) :
    step s = rejectAccess a r { s with inbox := rest } := by
  have hh : heldBack a s = false := by simp [heldBack, hc]
  simp [step, hb, hh, hd]

theorem step_rejected_ready {r : Reject} {rest : List Event} (hb : s.inbox = .op a :: rest)
    (h : PortReady s a.time) (hd : decode s.cfg.variant s.pending a = .error r) :
    step s = .refused (refusalOf r) := by
  rw [step_of_reject hb h.1.2 hd]
  exact rejectAccess_ready r h

theorem step_rejected_frozen {r : Reject} {rest : List Event} (hb : s.inbox = .op a :: rest)
    (ha : a.fromCpu = true) (h : CpuReady s a.time) (hf : s.dmaType = some .vbusToVram)
    (hd : decode s.cfg.variant s.pending a = .error r) : step s = .fault .accessWhileFrozen := by
  rw [step_of_reject hb h.2 hd]
  exact rejectAccess_frozen r ha h hf

/-- A 68000 byte access is never an operation (R84, R117). -/
theorem decode_write8_word (pending : Bool) (p : Port) (b : Byte) (t : Nat) :
    decode .v68k pending (.write8 p b t) =
      .error (if p = .vCounter ∨ p = .hCounter then .noSuchPort else .byteAccess68K) := by
  cases p <;> rfl

theorem decode_read8_word (pending : Bool) (p : Port) (t : Nat) :
    decode .v68k pending (.read8 p t) =
      .error (if p = .vCounter ∨ p = .hCounter then .noSuchPort else .byteAccess68K) := by
  cases p <;> rfl

end reject

section data

variable {s : State} {t : Nat}

/-- A 68000 data access has no meaning while Mode 5 is off (R170, R190). -/
theorem execDataW16_mode4 (w : Word) (h : PortReady s t) (hv : s.cfg.variant = .v68k)
    (hm : s.m5 = false) : exec (.dataW16 w t) s = .refused .data68KMode4 := by
  have hm : ({ s with lastT := t } : State).m5 = false := hm
  simp only [exec, execDataW16, portAccess_ready h (congrArg Variant.isWord hv), andThen_next, hm]
  rfl

theorem execDataR16_mode4 (h : PortReady s t) (hv : s.cfg.variant = .v68k) (hm : s.m5 = false) :
    exec (.dataR16 t) s = .refused .data68KMode4 := by
  have hm : ({ s with lastT := t } : State).m5 = false := hm
  simp only [exec, execDataR16, portAccess_ready h (congrArg Variant.isWord hv), andThen_next, hm]
  rfl

/-- The TMS variant has no counter port (R226). -/
theorem execVR8_tms (h : PortReady s t) (hv : s.cfg.variant = .vTms) :
    exec (.vR8 t) s = .refused .noCounterPortTMS := by
  simp only [exec, execVR8, portAccess_ready h (congrArg Variant.isByte hv), andThen_next, hv]
  rfl

theorem execHR8_tms (h : PortReady s t) (hv : s.cfg.variant = .vTms) :
    exec (.hR8 t) s = .refused .noCounterPortTMS := by
  simp only [exec, execHR8, portAccess_ready h (congrArg Variant.isByte hv), andThen_next, hv]
  rfl

end data

/-- Settles O13: a 68000 byte access is rejected by the decoder, the other accesses by their own meaning. -/
theorem accessesWithoutMeaningAreRefused : Obligations.AccessesWithoutMeaningAreRefused := by
  refine ⟨fun s t h => ⟨fun p b rest hv hp => ?_, fun w hv hm => ?_, fun hv => ?_, ?_⟩,
    fun s t p b rest h hd hv => ?_⟩
  · have hp : ¬ (p = .vCounter ∨ p = .hCounter) := by
      rintro (rfl | rfl) <;> simp at hp
    refine ⟨fun hb => step_rejected_ready (r := .byteAccess68K) hb h ?_,
      fun hb => step_rejected_ready (r := .byteAccess68K) hb h ?_⟩
    · rw [hv, decode_write8_word, if_neg hp]
    · rw [hv, decode_read8_word, if_neg hp]
  · exact ⟨execDataW16_mode4 w h hv hm, execDataR16_mode4 h hv hm⟩
  · exact ⟨execVR8_tms h hv, execHR8_tms h hv⟩
  · exact State.m5_of_isByte
  · exact ⟨fun hb => step_rejected_frozen hb rfl h hd (hv ▸ decode_write8_word s.pending p b t),
      fun hb => step_rejected_frozen hb rfl h hd (hv ▸ decode_read8_word s.pending p t)⟩

/-! ### The ignored bits (R115) -/

/-- A control write that is not deferred has an outcome its effect alone decides: the word it arrived as is
kept only by a deferral (R130, R281). -/
theorem controlWrite_unfrozen {ok : Variant → Bool} (v v' : Word) {t : Nat}
    {eff : State → State × Nat} {s : State} (hu : Unfrozen s) :
    controlWrite ok v t eff s = controlWrite ok v' t eff s := by
  unfold controlWrite
  cases he : enter .cpu t s with
  | next n =>
    obtain ⟨rfl, -, -⟩ := enter_eq_next he
    simp [hu]
  | fault f => rfl
  | refused q => rfl

/-- Settles O11: words that differ in ignored bits have one effect. -/
theorem ignoredBitsHaveNoEffect : Obligations.IgnoredBitsHaveNoEffect := fun _ _ hu =>
  ⟨fun _ _ _ _ => controlWrite_unfrozen _ _ hu, fun _ _ _ _ _ _ => controlWrite_unfrozen _ _ hu,
    fun _ _ _ => controlWrite_unfrozen _ _ hu⟩

/-! ### The two halves of a 68000 address (R111, R132, R133) -/

section halves

variable {s : State} {t : Nat}

/-- CTRL_A1 latches the low halves of the address and the code, and leaves the registers and a state that is
ready for the second word (R132). -/
theorem execCtrlA1_latches (cd : BitVec 2) (a : BitVec 14) (h : PortReady s t)
    (hv : s.cfg.variant = .v68k) :
    ∃ n, exec (.ctrlA1 cd a t) s = .next n ∧ (∀ u, t ≤ u → PortReady n u) ∧
      n.cfg = s.cfg ∧ n.reg = s.reg ∧
      n.code.extractLsb' 0 2 = cd ∧ n.addr.extractLsb' 0 14 = a := by
  refine ⟨_, controlWrite_ready h (congrArg Variant.isWord hv), fun u htu => ?_, rfl, rfl,
    BitVec.extractLsb'_append_eq_right, BitVec.extractLsb'_append_eq_right⟩
  obtain ⟨⟨⟨hf, hr, -⟩, hc⟩, hu⟩ := h
  exact ⟨⟨⟨hf, hr, htu⟩, hc⟩, hu⟩

/-- A committed code that starts no DMA: the code and `pending` stay, and the address moves by the increment
where the code is a read code (R133, R197). -/
theorem State.commitA2_of_no_dma {step : Nat → State → State × Nat} (hd : s.startsDma = false) :
    (s.commitA2 step t).1.code = s.code ∧ (s.commitA2 step t).1.pending = s.pending ∧
      (s.commitA2 step t).1.addr =
        if isReadCode s.target then s.addr + s.inc.setWidth 16 else s.addr := by
  simp only [State.commitA2, hd, Bool.false_eq_true, if_false]
  split
  · exact ⟨by simp, by simp, by rw [State.refill16_eq]⟩
  · exact ⟨rfl, rfl, rfl⟩

/-- CTRL_A2 of a code that starts no DMA puts the high halves above the latched low ones (R133). -/
theorem execCtrlA2_commits (hi : BitVec 8) (cd : BitVec 4) (mid a : BitVec 2) (h : PortReady s t)
    (hv : s.cfg.variant = .v68k)
    (hd : (cd ++ s.code.extractLsb' 0 2).getLsbD 5 = false ∨ s.dmaEn = false) :
    ∃ n, exec (.ctrlA2 hi cd mid a t) s = .next n ∧
      n.code = cd ++ s.code.extractLsb' 0 2 ∧ n.pending = false ∧
      n.addr =
        if isReadCode ((cd ++ s.code.extractLsb' 0 2).extractLsb' 0 4) then
          a ++ s.addr.extractLsb' 0 14 + s.inc.setWidth 16
        else a ++ s.addr.extractLsb' 0 14 := by
  have hno : (State.latchA2 cd a { s with lastT := t }).startsDma = false := by
    show ((cd ++ s.code.extractLsb' 0 2).getLsbD 5 && s.dmaEn && s.m5) = false
    rcases hd with hd | hd <;> simp only [hd, Bool.false_and, Bool.and_false]
  exact ⟨_, controlWrite_ready h (congrArg Variant.isWord hv),
    State.commitA2_of_no_dma (step := State.dmaStep) (t := t) hno⟩

end halves

/-- Settles O18: CTRL_A1 latches the low halves, and CTRL_A2 commits them under its own. -/
theorem twoPhasesYieldTheAddress : Obligations.TwoPhasesYieldTheAddress := by
  intro s c1 a1 hi c2 mid a2 t u h htu hv hd
  obtain ⟨m, hm, hready, hcfg, hreg, rfl, rfl⟩ := execCtrlA1_latches c1 a1 h hv
  have hm5 : m.m5 = s.m5 := State.m5_congr hcfg hreg
  have hen : m.dmaEn = s.dmaEn := by simp only [State.dmaEn, hm5, State.rd_congr hreg]
  have hinc : m.inc = s.inc := by simp only [State.inc, hm5, State.rd_congr hreg]
  rw [hm, andThen_next, ← hinc]
  rw [← hen] at hd
  exact execCtrlA2_commits hi c2 mid a2 (hready u htu) (hcfg ▸ hv) hd

end Sys2Proof.Machine
end

section
/-! Proofs, the control port: the exact state each control write leaves (R131 to R134, R150 to R157), and what
one that starts no DMA can change. -/

namespace Sys2Proof.Machine

/-! ### The parts of a control write -/

/-- When a committed code starts a DMA (R133). -/
theorem State.startsDma_iff (s : State) :
    s.startsDma = true ↔ s.code.getLsbD 5 = true ∧ s.dmaEn = true ∧ s.m5 = true := by
  simp [State.startsDma, and_assoc]

/-- The read codes as a list (R197). -/
theorem isReadCode_iff (c : BitVec 4) : isReadCode c = true ↔ c ∈ [0x0#4, 0x4#4, 0x8#4, 0xC#4] := by
  simp [isReadCode, or_assoc]

/-- The prefetch of the word port draws at every target but VRAM (R192 to R197). -/
theorem State.refill16_at_target (s : State) :
    s.refill16 =
      { s with
        readBuf := s.targetValue
        addr := s.addr + s.inc.setWidth 16
        draws := if s.target = 0x0#4 then s.draws else s.draws + 1 } := by
  rw [State.refill16_eq, State.targetDraws]
  by_cases h : s.target = 0x0#4 <;> simp [h]

section commit

variable {step : Nat → State → State × Nat} {t : Nat} {s : State}

theorem State.commitA2_dma (h : s.startsDma = true) : s.commitA2 step t = s.dmaTrigger step t := by
  simp [State.commitA2, h]

theorem State.commitA2_prefetch (h : ¬ s.startsDma = true) (hc : isReadCode s.target = true) :
    s.commitA2 step t = (s.refill16, t) := by
  simp [State.commitA2, h, hc]

theorem State.commitA2_rest (h : ¬ s.startsDma = true) (hc : ¬ isReadCode s.target = true) :
    s.commitA2 step t = (s, t) := by
  simp [State.commitA2, h, hc]

end commit

/-- A register write leaves every register but the one it names (R140). -/
theorem State.rd_writeRegister_other (s : State) {i j : BitVec 5} (d : Byte) (t : Nat) (hj : j ≠ i) :
    (s.writeRegister i d t).rd j = s.rd j := by
  by_cases hi : s.regIgnored i = true
  · rw [State.writeRegister_of_ignored d t hi]
  · rw [State.rd_writeRegister d t j hi, if_neg hj]

/-- The register a write names afterwards: its data, unless Mode 5 is off and the write is ignored (R140). -/
theorem State.rd_writeRegister_same (s : State) (i : BitVec 5) (d : Byte) (t : Nat) :
    (s.writeRegister i d t).rd i =
      if (11#5 ≤ i ∧ i ≤ 23#5) ∧ s.m5 = false then s.rd i else d := by
  rw [← if_congr (s.regIgnored_iff i) rfl rfl]
  split
  · rename_i hi
    rw [State.writeRegister_of_ignored d t hi]
  · rename_i hi
    rw [State.rd_writeRegister d t i hi, if_pos rfl]

/-- The fields a register write can change (R140 to R143). -/
theorem State.writeRegister_frame (i : BitVec 5) (d : Byte) (t : Nat) (s : State) :
    s.writeRegister i d t =
      { s with
        reg := (s.writeRegister i d t).reg
        fifoCount := (s.writeRegister i d t).fifoCount
        fifoLastWrite := (s.writeRegister i d t).fifoLastWrite
        hvLatch := (s.writeRegister i d t).hvLatch
        renderMode := (s.writeRegister i d t).renderMode
        displayLines := (s.writeRegister i d t).displayLines
        backdropColor := (s.writeRegister i d t).backdropColor } := by
  by_cases hi : s.regIgnored i = true
  · rw [State.writeRegister_of_ignored d t hi]
  · rw [State.writeRegister_of_not_ignored d t hi]

/-- The prefetch of a byte port at a 14-bit address, which advances modulo 2^14 (R152). -/
theorem State.refill8_at {s : State} {b : BitVec 14} (h : s.addr = b.setWidth 16) :
    s.refill8 =
      { s with
        readBuf := (s.vram.read b.toNat).setWidth 16
        addr := BitVec.ofNat 16 ((b.toNat + 1) % 16384) } := by
  have hb := b.isLt
  have hread : s.addr.toNat = b.toNat := by
    rw [h, BitVec.toNat_setWidth]
    omega
  have hnext : (s.addr.setWidth 14 + 1#14).setWidth 16 =
      BitVec.ofNat 16 ((b.toNat + 1) % 16384) := by
    apply BitVec.eq_of_toNat_eq
    simp only [h, BitVec.toNat_setWidth, BitVec.toNat_add, BitVec.toNat_ofNat]
    omega
  rw [State.refill8_eq, hread, hnext]

/-- A two-bit code is that of a VRAM write exactly if it is 01 (R108, R134). -/
theorem vramTarget_code2 (cd : BitVec 2) :
    decide ((cd.setWidth 6).extractLsb' 0 4 = 0x1#4) = decide (cd = 0b01#2) := by
  revert cd; decide

/-- A one-bit code is that of a VRAM write exactly if it is 1 (R134, R155). -/
theorem vramTarget_code1 (rw : BitVec 1) :
    decide ((rw.setWidth 6).extractLsb' 0 4 = 0x1#4) = decide (rw = 1#1) := by
  revert rw; decide

/-! ### What a control write that starts no DMA can do -/

/-- An operation is a register write that names the register (R131, R153, R156). -/
def NamesRegister (i : Instr) (s : State) (j : BitVec 5) : Prop :=
  (∃ ign data t, i = .ctrlRw ign j data t) ∨
  (∃ a t, i = .ctrlB2Reg a t ∧ j = ((0b10#2 ++ a : Byte) &&& s.cfg.z80RegMask).setWidth 5) ∨
  (∃ ign idx t, i = .ctrlT2Reg ign idx t ∧ j = idx.setWidth 5)

section effect

variable {step : Nat → State → State × Nat} {i : Instr} {s : State}
  (hno : ∀ hi cd mid a t, i = .ctrlA2 hi cd mid a t → ¬ (s.latchA2 cd a).startsDma = true)
include hno

/-- The effect of a control write that starts no DMA: it moves the pointer, the latches and the buffer, or
writes the register it names (R131 to R133, R150 to R156). -/
theorem controlEffect_cases :
    (∃ a c p l b d, (controlEffect step i s).1 =
      { s with addr := a, code := c, pending := p, ctrlLatch := l, readBuf := b, draws := d }) ∨
    (∃ j d t a c p, NamesRegister i s j ∧ (controlEffect step i s).1 =
      State.writeRegister j d t { s with addr := a, code := c, pending := p }) := by
  cases i with
  | ctrlRw ign idx data t => exact .inr ⟨_, _, _, _, _, _, .inl ⟨_, _, _, rfl⟩, rfl⟩
  | ctrlB2Reg a t => exact .inr ⟨_, _, _, _, _, _, .inr (.inl ⟨_, _, rfl, rfl⟩), rfl⟩
  | ctrlT2Reg ign idx t => exact .inr ⟨_, _, _, _, _, _, .inr (.inr ⟨_, _, _, rfl, rfl⟩), rfl⟩
  | ctrlA2 hi cd mid a t =>
    have hd := hno hi cd mid a t rfl
    refine .inl ?_
    by_cases hc : isReadCode (s.latchA2 cd a).target = true
    · rw [controlEffect, State.effectA2, State.commitA2_prefetch hd hc, State.refill16_eq]
      exact ⟨_, _, _, _, _, _, rfl⟩
    · rw [controlEffect, State.effectA2, State.commitA2_rest hd hc]
      exact ⟨_, _, _, _, _, _, rfl⟩
  | ctrlB2Addr cd a t =>
    refine .inl ?_
    simp only [controlEffect, State.effectB2Addr]
    split <;> exact ⟨_, _, _, _, _, _, rfl⟩
  | ctrlT2Addr rw a t =>
    refine .inl ?_
    simp only [controlEffect, State.effectT2Addr]
    split <;> exact ⟨_, _, _, _, _, _, rfl⟩
  | _ => exact .inl ⟨_, _, _, _, _, _, rfl⟩

/-- The fields a control write that starts no DMA can change, with the registers' caches and the FIFO. -/
theorem controlEffect_frame {n : State} (hn : n = (controlEffect step i s).1) :
    n = { s with
      reg := n.reg, addr := n.addr, code := n.code, pending := n.pending
      ctrlLatch := n.ctrlLatch, readBuf := n.readBuf, draws := n.draws
      fifoCount := n.fifoCount, fifoLastWrite := n.fifoLastWrite, hvLatch := n.hvLatch
      renderMode := n.renderMode, displayLines := n.displayLines
      backdropColor := n.backdropColor } := by
  obtain ⟨a, c, p, l, b, d, he⟩ | ⟨j, d, t, a, c, p, -, he⟩ := controlEffect_cases (step := step) hno
  · rw [hn, he]
  · rw [hn, he, State.writeRegister_frame]

/-- A control write that starts no DMA changes a register only where it names it. -/
theorem namesRegister_of_controlEffect {j : BitVec 5}
    (hj : (controlEffect step i s).1.rd j ≠ s.rd j) : NamesRegister i s j := by
  obtain ⟨a, c, p, l, b, d, he⟩ | ⟨k, d, t, a, c, p, hk, he⟩ := controlEffect_cases (step := step) hno
  · rw [he] at hj
    exact absurd rfl hj
  · have hjk : j = k := by
      by_contra hn
      rw [he, State.rd_writeRegister_other _ d t hn] at hj
      exact hj rfl
    rw [hjk]
    exact hk

end effect

/-- All a control write that is not deferred can do: run its effect, recompute the FIFO latency, set the
output (R130, R134). -/
theorem exec_controlWrite_eq_next {i : Instr} {s n : State} (hc : instrIsControlWrite i = true)
    (hu : Unfrozen s) (h : exec i s = .next n) :
    ∃ o, n = { (controlEffect State.dmaStep i { s with lastT := instrTime i }).1.relatch with
      out := o } := by
  obtain ⟨u, o, rfl, hw⟩ := exec_eq_next h
  cases hw with
  | deferred _ hd _ => exact absurd hd hu
  | control _ _ _ => exact ⟨o, rfl⟩
  | _ => contradiction

/-! ### The statements on the control port -/

/-- Settles O17: the three branches of `commitA2` after the latch. -/
theorem ctrlA2CommitsAddress : Obligations.CtrlA2CommitsAddress := by
  rintro s hi cd mid a t n h hv rfl
  have he : exec (.ctrlA2 hi cd mid a t) s = _ := controlWrite_ready h (congrArg Variant.isWord hv)
  simp only [State.effectA2] at he
  refine ⟨fun hd => ?_, fun hd hc => ?_, fun hd hc => ?_⟩
  · have hd : (State.latchA2 cd a { s with lastT := t }).startsDma = true :=
      (State.startsDma_iff _).mpr hd
    rw [he, State.commitA2_dma hd]
    rfl
  · have hd : ¬ (State.latchA2 cd a { s with lastT := t }).startsDma = true :=
      mt (State.startsDma_iff _).mp hd
    rw [he, State.commitA2_prefetch hd ((isReadCode_iff _).mpr hc), State.refill16_at_target]
    rfl
  · have hd : ¬ (State.latchA2 cd a { s with lastT := t }).startsDma = true :=
      mt (State.startsDma_iff _).mp hd
    rw [he, State.commitA2_rest hd (mt (isReadCode_iff _).mp hc)]
    rfl

/-- Settles O15: the register write, then the latency of the state it leaves. -/
theorem ctrlRwWritesRegisterAtOnce : Obligations.CtrlRwWritesRegisterAtOnce := by
  intro s ign idx data t h hv
  exact ⟨_, controlWrite_ready h (congrArg Variant.isWord hv),
    State.rd_writeRegister_same { s with lastT := t } idx data t,
    fun j hj => State.rd_writeRegister_other { s with lastT := t } data t hj,
    rfl, by simp, by simp, by simp⟩

/-- Settles O16: the effect of CTRL_A1 is the record stated. -/
theorem ctrlA1LatchesFirstHalf : Obligations.CtrlA1LatchesFirstHalf := fun _ _ _ _ h hv =>
  controlWrite_ready h (congrArg Variant.isWord hv)

/-- Settles O20: recomputing the latency is the last part of every control write that ran. -/
theorem controlWritesRecomputeLatency : Obligations.ControlWritesRecomputeLatency := by
  intro i s n hc hu h
  obtain ⟨o, rfl⟩ := exec_controlWrite_eq_next hc hu h
  rfl

/-- Settles O21: CTRL_B2_ADDR latches the address and code, and prefetches where the code is 00. -/
theorem byteAddressSequence : Obligations.ByteAddressSequence := by
  intro s t h
  refine ⟨fun b hv => controlWrite_ready h hv, ?_⟩
  rintro cd a n hv rfl
  have he : exec (.ctrlB2Addr cd a t) s = _ := controlWrite_ready h hv
  rw [← vramTarget_code2]
  refine ⟨fun hcd => ?_, fun hcd => ?_⟩
  · rw [he, State.effectB2Addr, if_neg hcd]
    rfl
  · rw [he, State.effectB2Addr, if_pos hcd, State.refill8_at (b := a ++ s.ctrlLatch) rfl]
    rfl

/-- Settles O22: the latched address and code, then the register write. -/
theorem ctrlB2RegWritesRegister : Obligations.CtrlB2RegWritesRegister := by
  rintro s a t n h hv rfl
  exact controlWrite_ready h hv

/-- Settles O23: the TMS address is the one the big VRAM bit selects, and only the read prefetches. -/
theorem tmsSecondByte : Obligations.TmsSecondByte := by
  intro s t h hv
  have hok : s.cfg.variant.isTms = true := by rw [hv]; rfl
  refine ⟨?_, ?_⟩
  · rintro rw a b n hb rfl
    have he : exec (.ctrlT2Addr rw a t) s = _ := controlWrite_ready h hok
    have ha : State.tmsAddr a { s with lastT := t } = b := by
      have hbig : ({ s with lastT := t } : State).bigVram = (s.rd 1).getLsbD 7 := by
        show (s.cfg.variant.isTms && (s.rd 1).getLsbD 7) = _
        rw [hok, Bool.true_and]
      rw [hb, State.tmsAddr, hbig]
    rw [← vramTarget_code1]
    refine ⟨fun hrw => ?_, fun hrw => ?_⟩
    · have hn : ¬ rw = 0#1 := by rw [hrw]; decide
      rw [he, State.effectT2Addr, if_neg hn, State.latchT2, ha]
      rfl
    · rw [he, State.effectT2Addr, if_pos hrw, State.latchT2, ha, State.refill8_at (b := b) rfl]
      rfl
  · rintro ign idx n rfl
    exact ⟨by simp, by simp, by simp, controlWrite_ready h hok⟩

/-- Settles O25: the record of the fields such a write can change, and the register it names. -/
theorem controlWriteFrame : Obligations.ControlWriteFrame := by
  intro i s n hc hu h hno
  obtain ⟨o, rfl⟩ := exec_controlWrite_eq_next hc hu h
  have hno : ∀ hi cd mid a t, i = .ctrlA2 hi cd mid a t →
      ¬ (State.latchA2 cd a { s with lastT := instrTime i }).startsDma = true := by
    intro hi cd mid a t hi' hd
    obtain ⟨hcode, hen, -⟩ := (State.startsDma_iff _).mp hd
    exact hno hi cd mid a t hi' ⟨hcode, hen⟩
  rw [controlEffect_frame hno rfl]
  exact ⟨fun _ => rfl, fun _ => rfl, fun _ => rfl, fun _ => rfl, rfl, rfl, rfl, rfl, rfl, rfl, rfl,
    rfl, rfl, rfl, rfl, fun j hj => namesRegister_of_controlEffect hno hj⟩

end Sys2Proof.Machine
end

section
/-! Proofs, the data port: what the bus-write path stores by its target, the exact state each data access leaves,
and the values of a read target (R170 to R198). -/

namespace Sys2Proof.Machine

/-! ### The bus-write path by its target (R171 to R176) -/

section target

variable {s : State} {w : Word}

theorem State.targetWrite_vramCode (h : s.target = 0x1#4) :
    s.targetWrite w = s.vramWordWrite s.addr w := by
  simp [State.targetWrite, h]

theorem State.targetWrite_cramCode (h : s.target = 0x3#4) :
    s.targetWrite w = s.cramWrite s.cramIdx16 (pack12 w) := by
  simp [State.targetWrite, h]

theorem State.targetWrite_vsramCode (h : s.target = 0x5#4) :
    s.targetWrite w = s.vsramWrite s.addr w := by
  simp [State.targetWrite, h]

theorem State.targetWrite_otherCode (h1 : s.target ≠ 0x1#4) (h3 : s.target ≠ 0x3#4)
    (h5 : s.target ≠ 0x5#4) : s.targetWrite w = s := by
  simp [State.targetWrite, h1, h3, h5]

end target

/-- A target write as one record: each bank is written at its own code (R171 to R175). -/
theorem State.targetWrite_eq (s : State) (w : Word) :
    s.targetWrite w =
      { s with
        vram := if s.target = 0x1#4 then (s.vramWordWrite s.addr w).vram else s.vram
        dirty := if s.target = 0x1#4 then (s.vramWordWrite s.addr w).dirty else s.dirty
        sat := if s.target = 0x1#4 then (s.vramWordWrite s.addr w).sat else s.sat
        cram := if s.target = 0x3#4 then cramStore s.cram s.cramIdx16 (pack12 w) else s.cram
        backdropColor :=
          if s.target = 0x3#4 ∧ s.cramIdx16 = s.backdropIdx then pack12 w else s.backdropColor
        vsram := if s.target = 0x5#4 then (s.vsramWrite s.addr w).vsram else s.vsram } := by
  by_cases h1 : s.target = 0x1#4
  · rw [State.targetWrite_vramCode h1, State.vramWordWrite_frame]
    simp [h1]
  · by_cases h3 : s.target = 0x3#4
    · rw [State.targetWrite_cramCode h3, State.cramWrite_eq]
      simp [h3]
    · by_cases h5 : s.target = 0x5#4
      · rw [State.targetWrite_vsramCode h5]
        simp [h5, State.vsramWrite]
      · rw [State.targetWrite_otherCode h1 h3 h5]
        simp [h1, h3, h5]

/-- The bus-write path is the target write with the address moved by the increment (R172, R176). -/
theorem State.busWrite_eq (s : State) (w : Word) :
    s.busWrite w = { s.targetWrite w with addr := s.addr + s.inc.setWidth 16 } := by
  rw [State.busWrite, State.advance16, State.targetWrite_addr, State.targetWrite_inc]

section busWrite

variable (s : State) (w : Word)

theorem State.busWrite_addr : (s.busWrite w).addr = s.addr + s.inc.setWidth 16 := by
  rw [State.busWrite_eq]

theorem State.busWrite_vram : (s.busWrite w).vram =
    if s.target = 0x1#4 then (s.vramWordWrite s.addr w).vram else s.vram := by
  rw [State.busWrite_eq, State.targetWrite_eq]

theorem State.busWrite_dirty : (s.busWrite w).dirty =
    if s.target = 0x1#4 then (s.vramWordWrite s.addr w).dirty else s.dirty := by
  rw [State.busWrite_eq, State.targetWrite_eq]

theorem State.busWrite_sat : (s.busWrite w).sat =
    if s.target = 0x1#4 then (s.vramWordWrite s.addr w).sat else s.sat := by
  rw [State.busWrite_eq, State.targetWrite_eq]

theorem State.busWrite_cram : (s.busWrite w).cram =
    if s.target = 0x3#4 then cramStore s.cram s.cramIdx16 (pack12 w) else s.cram := by
  rw [State.busWrite_eq, State.targetWrite_eq]

theorem State.busWrite_backdropColor : (s.busWrite w).backdropColor =
    if s.target = 0x3#4 ∧ s.cramIdx16 = s.backdropIdx then pack12 w else s.backdropColor := by
  rw [State.busWrite_eq, State.targetWrite_eq]

theorem State.busWrite_vsram : (s.busWrite w).vsram =
    if s.target = 0x5#4 then (s.vsramWrite s.addr w).vsram else s.vsram := by
  rw [State.busWrite_eq, State.targetWrite_eq]

/-- A VSRAM word read after a bus write (R80, R174). -/
theorem State.vsramRead_busWrite (b : Word) : (s.busWrite w).vsramRead b =
    if s.target = 0x5#4 ∧ vsramIdx b = vsramIdx s.addr then w else s.vsramRead b := by
  by_cases h : s.target = 0x5#4
  · have hr : (s.busWrite w).vsramRead b = (s.vsramWrite s.addr w).vsramRead b := by
      simp only [State.vsramRead, State.busWrite_vsram, if_pos h]
    rw [hr, State.vsramRead_vsramWrite]
    simp only [h, true_and]
  · simp [State.vsramRead, State.busWrite_vsram, h]

/-- The fields a bus write can change. -/
theorem State.busWrite_frame :
    s.busWrite w =
      { s with
        addr := (s.busWrite w).addr
        vram := (s.busWrite w).vram
        sat := (s.busWrite w).sat
        dirty := (s.busWrite w).dirty
        cram := (s.busWrite w).cram
        backdropColor := (s.busWrite w).backdropColor
        vsram := (s.busWrite w).vsram } := by
  rw [State.busWrite_eq, State.targetWrite_eq]

end busWrite

/-- The CRAM entry the address selects, as a number (R81). -/
theorem State.cramIdx16_toNat (s : State) : s.cramIdx16.toNat = s.addr.toNat / 2 % 64 := by
  rw [State.cramIdx16, BitVec.extractLsb'_toNat, Nat.shiftRight_eq_div_pow]

/-- Two addresses select one VSRAM word exactly if their bits 6:1 agree (R80). -/
theorem vsramIdx_eq_iff (a b : Word) :
    vsramIdx a = vsramIdx b ↔ a.toNat / 2 % 64 = b.toNat / 2 % 64 := by
  rw [vsramIdx_eq, vsramIdx_eq]
  omega

/-- Settles O27: what each bank is after the path, read by that bank's own read-after-write law. -/
theorem busWriteChangesOnlyItsTarget : Obligations.BusWriteChangesOnlyItsTarget := by
  rintro s w n colour rfl rfl
  rw [← pack12, ← State.target, ← State.cramIdx16]
  refine ⟨s.busWrite_addr w, fun h => ?_, fun h => ?_, fun j hlo hhi => ?_, fun j => ?_,
    fun k => ?_, s.busWrite_backdropColor w, fun j => ?_, fun b => ?_, s.busWrite_frame w⟩
  · simp only [State.busWrite_vram, State.busWrite_dirty, State.busWrite_sat, if_pos h, and_self]
  · simp only [State.busWrite_vram, State.busWrite_dirty, State.busWrite_sat, if_neg h, and_self]
  · rw [State.busWrite_vram]
    split
    · rw [State.read_vramWordWrite, if_neg hlo, if_neg hhi]
    · rfl
  · rw [State.busWrite_cram, ← State.cramIdx16_toNat]
    by_cases h : s.target = 0x3#4 <;> simp [h, read_cramStore]
  · rw [State.busWrite_cram]
    by_cases h : s.target = 0x3#4 <;> simp [h, cramEntry_cramStore]
  · rw [State.busWrite_vsram, ← vsramIdx_eq]
    by_cases h : s.target = 0x5#4 <;> simp [h, State.read_vsramWrite, loByte, hiByte]
  · simp only [State.vsramRead_busWrite, vsramIdx_eq_iff]

/-! ### Word data accesses (R170, R190, R196) -/

/-- A data write that finds no fill armed ends with its store (R170). -/
theorem State.dataWrite16_unarmed {s : State} (w : Word) (t : Nat) (h : s.fillArmed = false) :
    s.dataWrite16 w t = ((s.noteData t).1.busWrite w, (s.noteData t).2) := by
  simp [State.dataWrite16, State.dataStore16, State.noteData, h]

section word

variable {s : State} {t : Nat}

theorem execDataW16_ready (w : Word) (h : PortReady s t) (hv : s.cfg.variant = .v68k)
    (hm : s.m5 = true) :
    exec (.dataW16 w t) s =
      .next { (State.dataWrite16 w t { s with lastT := t }).1 with
        out := ⟨none, (State.dataWrite16 w t { s with lastT := t }).2, none⟩ } := by
  have hm : ({ s with lastT := t } : State).m5 = true := hm
  simp only [exec, execDataW16, portAccess_ready h (congrArg Variant.isWord hv), andThen_next, hm]
  rfl

/-- A data read is its refill, or leaves the CPU stuck (R190, R196). -/
theorem execDataR16_ready (h : PortReady s t) (hv : s.cfg.variant = .v68k) (hm : s.m5 = true) :
    exec (.dataR16 t) s =
      if s.targetSticks then
        .next { s with
          lastT := t, pending := false, cpuStuck := true, draws := s.draws + 1
          out := ⟨none, t, none⟩ }
      else
        .next { s with
          lastT := t
          pending := false
          readBuf := s.targetValue
          addr := s.addr + s.inc.setWidth 16
          draws := if s.target = 0x0#4 then s.draws else s.draws + 1
          out := ⟨some s.readBuf, t, none⟩ } := by
  have hm : ({ s with lastT := t } : State).m5 = true := hm
  simp only [exec, execDataR16, portAccess_ready h (congrArg Variant.isWord hv), andThen_next, hm,
    if_true, State.refill16_at_target]
  rfl

end word

/-- Settles O26: with no fill armed the write is the bus-write path after the FIFO's charge. -/
theorem dataW16WritesThroughTheBus : Obligations.DataW16WritesThroughTheBus := by
  rintro s w t p h hv hm hf rfl
  refine ⟨?_, ?_, ?_⟩
  · rw [execDataW16_ready w h hv hm, State.dataWrite16_unarmed (s := { s with lastT := t }) w t hf]
    rfl
  · rw [State.busWrite_addr, State.fifoNoteWrite_addr, State.fifoNoteWrite_inc]
    rfl
  · rw [State.busWrite_pending, State.fifoNoteWrite_pending]

/-- Settles O32: at a read code the read does not stick. -/
theorem dataR16IsBuffered : Obligations.DataR16IsBuffered := by
  intro s t h hv hm hc
  have hs : s.targetSticks = false := by
    simp [State.targetSticks, (isReadCode_iff s.target).mpr hc]
  rw [execDataR16_ready h hv hm, hs]
  rfl

/-- Settles O34: whichever outcome the free choice takes, it is one of the two admitted. -/
theorem invalidReadDrawsOrSticks : Obligations.InvalidReadDrawsOrSticks := by
  intro s t h hv hm hc
  have h0 : s.target ≠ 0x0#4 := fun h0 => hc (by rw [← State.target, h0]; simp)
  rw [execDataR16_ready h hv hm]
  cases s.targetSticks
  · exact .inl ⟨s.targetValue, by simp only [h0, if_false, Bool.false_eq_true]⟩
  · exact .inr rfl

/-! ### Byte data accesses (R180 to R185, R198) -/

/-- The next address of a byte port as a number (R152, R180, R198). -/
theorem advance14_eq (a : Word) :
    (a.setWidth 14 + 1#14).setWidth 16 = BitVec.ofNat 16 ((a.toNat + 1) % 16384) := by
  apply BitVec.eq_of_toNat_eq
  simp only [BitVec.toNat_setWidth, BitVec.toNat_add, BitVec.toNat_ofNat]
  omega

/-- The mask `0x00FF` keeps the low byte of a word (R198). -/
theorem and_lowByte (w : Word) : w &&& 0x00FF#16 = (w.extractLsb' 0 8).setWidth 16 := by
  ext i hi
  interval_cases i <;> simp

theorem State.cramIdxSms_eq (s : State) :
    s.cramIdxSms = BitVec.ofNat 6 (s.addr.toNat % 32) := by
  apply BitVec.eq_of_toNat_eq
  simp only [State.cramIdxSms, BitVec.toNat_setWidth, BitVec.extractLsb'_toNat, BitVec.toNat_ofNat,
    Nat.shiftRight_zero]

theorem State.cramIdxGg_eq (s : State) :
    s.cramIdxGg = BitVec.ofNat 6 (s.addr.toNat / 2 % 32) := by
  apply BitVec.eq_of_toNat_eq
  simp only [State.cramIdxGg, BitVec.toNat_setWidth, BitVec.extractLsb'_toNat, BitVec.toNat_ofNat,
    Nat.shiftRight_eq_div_pow]

/-- The colour of a Game Gear pair: blue in the odd byte, green and red in the even one (R183). -/
theorem pack12_append (v latch : Byte) :
    pack12 (v ++ latch) =
      v.extractLsb' 1 3 ++ latch.extractLsb' 5 3 ++ latch.extractLsb' 1 3 := by
  have := v.isLt
  have := latch.isLt
  apply BitVec.eq_of_toNat_eq
  simp only [pack12, append_toNat, BitVec.extractLsb'_toNat, Nat.shiftRight_eq_div_pow]
  omega

/-- A VRAM store looks at neither the timestamp nor `pending`. -/
theorem State.vramPut_entered (s : State) (t : Nat) (p : Bool) (i : Word) (v : Byte) :
    ({ s with lastT := t, pending := p } : State).vramPut i v =
      { s.vramPut i v with lastT := t, pending := p } := by
  have hstore : ({ s with lastT := t, pending := p } : State).vramStore i v =
      { s.vramStore i v with lastT := t, pending := p } := by
    unfold State.vramStore
    split <;> rfl
  rw [State.vramPut, hstore, State.vramPut]
  generalize s.vramStore i v = u
  unfold State.satMirror
  show (if u.inSat i = true then _ else _) = _
  split <;> rfl

section byteStore

variable {s : State} (v : Byte)

/-- A byte write goes to VRAM on the TMS variant and under every code but 11 (R180). -/
theorem State.byteStore_toVram (hb : s.cfg.variant.isByte = true)
    (h : s.cfg.variant = .vTms ∨ s.code.extractLsb' 0 2 ≠ 0b11#2) :
    s.byteStore v = s.vramPut s.addr v := by
  unfold State.byteStore
  rcases h with h | h
  · rw [h]
  · cases hv : s.cfg.variant <;> simp_all [Variant.isByte]

/-- Under code 11 the Master System and Mode 4 variants write the widened colour (R181, R184). -/
theorem State.byteStore_sms (hv : s.cfg.variant = .vz80Sms ∨ s.cfg.variant = .vz80Md4)
    (hc : s.code.extractLsb' 0 2 = 0b11#2) :
    s.byteStore v = s.cramWrite s.cramIdxSms (packSms v) := by
  unfold State.byteStore
  rcases hv with hv | hv <;> simp [hv, hc]

/-- Under code 11 the Game Gear latches the even byte and writes the pair at the odd one (R183). -/
theorem State.byteStore_gg (hv : s.cfg.variant = .vz80Gg) (hc : s.code.extractLsb' 0 2 = 0b11#2) :
    s.byteStore v =
      if s.addr.getLsbD 0 then s.cramWrite s.cramIdxGg (pack12 (v ++ s.ggLatch))
      else { s with ggLatch := v } := by
  simp [State.byteStore, hv, hc]

end byteStore

section byte

variable {s : State} {t : Nat}

theorem execDataW8_ready (v : Byte) (h : PortReady s t) (hv : s.cfg.variant.isByte = true) :
    exec (.dataW8 v t) s =
      .next { State.byteStore { s with lastT := t, pending := false } v with
        addr := BitVec.ofNat 16 ((s.addr.toNat + 1) % 16384)
        readBuf := v.setWidth 16
        out := ⟨none, t, none⟩ } := by
  simp only [exec, execDataW8, portAccess_ready h hv, andThen_next, State.dataWrite8_eq,
    advance14_eq]
  rfl

end byte

/-- Settles O31: the store each variant and code selects, under the fields every byte write sets. -/
theorem byteDataWrites : Obligations.ByteDataWrites := by
  rintro s v t n h hb rfl
  rw [execDataW8_ready v h hb]
  refine ⟨fun hc => ?_, fun hv hc => ⟨_, rfl, ?_⟩, fun hv hc ha => ?_, fun hv hc ha => ⟨_, rfl, ?_⟩⟩
  · rw [State.byteStore_toVram (s := { s with lastT := t, pending := false }) v hb hc,
      State.vramPut_entered, State.vramPut_frame]
  · rw [State.byteStore_sms (s := { s with lastT := t, pending := false }) v hv hc,
      ← State.cramIdxSms_eq, ← packSms, State.cramWrite_eq, State.cramWrite_eq]
    rfl
  · rw [State.byteStore_gg (s := { s with lastT := t, pending := false }) v hv hc, ha]
    rfl
  · rw [State.byteStore_gg (s := { s with lastT := t, pending := false }) v hv hc, ha,
      if_pos rfl, ← State.cramIdxGg_eq, ← pack12_append, State.cramWrite_eq, State.cramWrite_eq]
    rfl

/-- Settles O35: the byte refill, and the low byte of the buffer as the value. -/
theorem dataR8IsBuffered : Obligations.DataR8IsBuffered := by
  intro s t h hb
  simp only [exec, execDataR8, portAccess_ready h hb, andThen_next, State.refill8_eq, advance14_eq,
    and_lowByte]
  rfl

end Sys2Proof.Machine
end

section
/-! Proofs, the read target, and that outside Mode 5 no port access changes VSRAM or returns anything of it (R74,
R192 to R195). -/

namespace Sys2Proof.Machine

/-! ### The value of a read target (R192 to R195) -/

/-- The bus layout of an entry, by shifts (R194). -/
theorem unpack12_eq (e : Colour) :
    unpack12 e =
      (e.extractLsb' 6 3).setWidth 16 <<< 9 ||| (e.extractLsb' 3 3).setWidth 16 <<< 5 |||
        (e.extractLsb' 0 3).setWidth 16 <<< 1 := by
  apply BitVec.eq_of_getLsbD_eq
  intro i hi
  simp only [unpack12, BitVec.getLsbD_append, BitVec.getLsbD_or, BitVec.getLsbD_shiftLeft,
    BitVec.getLsbD_setWidth, BitVec.getLsbD_extractLsb']
  interval_cases i <;> simp

/-- A VRAM word on its two bytes (R78). -/
theorem State.vramWordRead_eq (s : State) (a : Word) :
    s.vramWordRead a =
      s.vram.read (a.toNat / 2 * 2 + 1) ++ s.vram.read (a.toNat / 2 * 2) := by
  rw [State.vramWordRead, evenAddr_toNat, evenAddr_succ_toNat]

section targetValue

variable {s : State}

theorem State.targetValue_vram (h : s.target = 0x0#4) :
    s.targetValue = s.vramWordRead s.addr := by
  simp [State.targetValue, h]

theorem State.targetValue_vsram (h : s.target = 0x4#4) : s.targetValue = s.vsramValue := by
  simp [State.targetValue, h]

theorem State.targetValue_cram (h : s.target = 0x8#4) :
    s.targetValue = unpack12 (cramEntry s.cram s.cramIdx16) ||| (s.nextDraw &&& 0xF111#16) := by
  simp [State.targetValue, h]

theorem State.targetValue_vramByte (h : s.target = 0xC#4) :
    s.targetValue = (s.nextDraw &&& 0xFF00#16) ||| (s.vramByteRead s.addr).setWidth 16 := by
  simp [State.targetValue, h]

end targetValue

/-! ### Port accesses outside Mode 5 (R74, R170, R190) -/

/-- Outside Mode 5 no committed code starts a DMA (R133). -/
theorem State.startsDma_of_mode4 {s : State} (hm : s.m5 = false) : ¬ s.startsDma = true := by
  simp [State.startsDma, hm]

/-- The clock a control write returns outside Mode 5 is the caller's: it starts no DMA (R133). -/
theorem controlEffect_clock_of_mode4 {step : Nat → State → State × Nat} {i : Instr} {s : State}
    (hm : s.m5 = false) : (controlEffect step i s).2 = instrTime i := by
  cases i with
  | ctrlA2 hi cd mid a t =>
    have hd : ¬ (s.latchA2 cd a).startsDma = true := State.startsDma_of_mode4 hm
    simp only [controlEffect, State.effectA2]
    by_cases hc : isReadCode (s.latchA2 cd a).target = true
    · rw [State.commitA2_prefetch hd hc]
      rfl
    · rw [State.commitA2_rest hd hc]
      rfl
  | _ => rfl

/-- The work of a CPU access outside Mode 5 leaves VSRAM: no control write starts a DMA, no word access to the
data port is admitted, and a byte write has no VSRAM code (R74). -/
theorem works_vsram_of_mode4 {i : Instr} {s u : State} (hi : instrFromCpu i = true)
    (hm : s.m5 = false) (h : Works i s u) : u.vsram = s.vsram := by
  cases h with
  | control hc hu hv =>
    have hno : ∀ hi cd mid a t, i = .ctrlA2 hi cd mid a t →
        ¬ (s.latchA2 cd a).startsDma = true :=
      fun _ _ _ _ _ _ => State.startsDma_of_mode4 hm
    rw [State.relatch, controlEffect_frame (step := State.dmaStep) hno rfl]
  | dataW16 h5 | dataR16 h5 _ => simp [h5] at hm
  | dataW8 _ => simp [State.dataWrite8_eq]
  | ctrlR16 | ctrlR8 => rw [State.statusRead_frame]
  | advance | deserialize | reset => contradiction
  | _ => rfl

/-- What a CPU access returns outside Mode 5, where the word port's data reads are refused (R190). -/
def mode4Value (i : Instr) (s : State) : Option Word :=
  match i with
  | .dataR8 _ => some (s.readBuf &&& 0x00FF#16)
  | .ctrlR16 t => some ((s.statusUpdate t).statusValue ||| (s.nextDraw &&& 0xFC00#16))
  | .ctrlR8 t =>
    some (((s.statusUpdate t).statusValue &&& 0x00E0#16) ||| (s.nextDraw &&& 0x001F#16))
  | .hvR16 t => some (s.hvValue t)
  | .vR8 t => some ((s.vByte t).setWidth 16)
  | .hR8 t => some ((s.hByte t).setWidth 16)
  | _ => none

/-- A status read's update outside Mode 5, where the FIFO is not updated (R242, R279). -/
theorem State.statusUpdate_of_mode4 {s : State} (hm : s.m5 = false) (t : Nat) :
    s.statusUpdate t =
      { s with
        status :=
          if s.dmaBusy = true ∧ s.dmaType = none ∧ s.dmaEndCycles ≤ t then s.status &&& 0xFFFD#16
          else s.status } := by
  have hf : s.fifoUpdate t = s := if_pos (.inl hm)
  rw [State.statusUpdate, hf, State.dmaBusyUpdate_eq, State.dmaBusyUpdate_status]

/-- What an access returns outside Mode 5 is the same whatever VSRAM holds (R74). -/
theorem mode4Value_withVsram (i : Instr) {s : State} (hm : s.m5 = false) (m : Memory) :
    mode4Value i { s with vsram := m } = mode4Value i s := by
  have hm' : ({ s with vsram := m } : State).m5 = false := hm
  cases i with
  | ctrlR16 t | ctrlR8 t =>
    rw [mode4Value, mode4Value, State.statusUpdate_of_mode4 hm, State.statusUpdate_of_mode4 hm']
    rfl
  | _ => rfl

/-- A control write outside Mode 5, deferred or not, returns no value and the caller's clock. -/
theorem controlWrite_out_of_mode4 {i : Instr} {ok : Variant → Bool} {v : Word} {s n : State}
    {eff : State → State × Nat}
    (he : ∀ u, (eff u).2 = (controlEffect State.dmaStep i u).2) (hm : s.m5 = false)
    (h : controlWrite ok v (instrTime i) eff s = .next n) : n.out = ⟨none, instrTime i, none⟩ := by
  obtain ⟨-, ⟨-, -, rfl⟩ | ⟨-, -, rfl⟩⟩ := controlWrite_eq_next h
  · rfl
  · have hm : ({ s with lastT := instrTime i } : State).m5 = false := hm
    simp only [he, controlEffect_clock_of_mode4 hm]

/-- All a CPU access returns outside Mode 5: its value and the caller's clock. -/
theorem exec_out_of_mode4 {i : Instr} {s n : State} (hi : instrFromCpu i = true)
    (hm : s.m5 = false) (h : exec i s = .next n) :
    n.out = ⟨mode4Value i { s with lastT := instrTime i }, instrTime i, none⟩ := by
  cases i with
  | ctrlRw | ctrlA1 | ctrlA2 | ctrlB1 | ctrlB2Addr | ctrlB2Reg | ctrlT2Addr | ctrlT2Reg =>
    exact controlWrite_out_of_mode4 (fun _ => rfl) hm h
  | dataW16 w t =>
    obtain ⟨_, _, -, hw⟩ := exec_eq_next h
    cases hw with
    | dataW16 h5 => exact absurd (hm.symm.trans h5) Bool.false_ne_true
    | _ => contradiction
  | dataR16 t =>
    obtain ⟨_, _, -, hw⟩ := exec_eq_next h
    cases hw with
    | stuck h5 _ | dataR16 h5 _ => exact absurd (hm.symm.trans h5) Bool.false_ne_true
    | _ => contradiction
  | dataW8 | dataR8 | ctrlR16 | ctrlR8 | hvR16 =>
    cases (portAccess_andThen h).1
    rfl
  | vR8 | hR8 =>
    obtain ⟨hk, -⟩ := portAccess_andThen h
    split at hk
    · cases hk
    · cases hk
      rfl
  | _ => contradiction

/-- Settles O33: outside Mode 5 no access's work reaches VSRAM and none's value depends on it; each read code has
its own equation of `targetValue`. -/
theorem readTargetValues : Obligations.ReadTargetValues := by
  refine ⟨fun i s n hi hm h => ⟨?_, fun m n' h' => ?_⟩, fun s => ⟨fun h => ?_, fun h => ?_,
    fun h => ?_, fun h => ?_⟩⟩
  · obtain ⟨u, o, rfl, hw⟩ := exec_eq_next h
    exact works_vsram_of_mode4 (s := { s with lastT := instrTime i }) (u := u) hi hm hw
  · rw [exec_out_of_mode4 hi hm h, exec_out_of_mode4 (s := { s with vsram := m }) hi hm h',
      ← mode4Value_withVsram i (s := { s with lastT := instrTime i }) hm m]
  · rw [State.targetValue_vram h, State.vramWordRead_eq]
  · exact ⟨s.nextDraw, State.targetValue_vsram h⟩
  · refine ⟨s.nextDraw, _, rfl, ?_⟩
    rw [State.targetValue_cram h, unpack12_eq]
    rfl
  · refine ⟨s.nextDraw, ?_⟩
    rw [State.targetValue_vramByte h, State.vramByteRead, State.logIdx_eq]

end Sys2Proof.Machine
end

section
/-! Proofs, the status reads and the HV counter: what CTRL_R16 and CTRL_R8 return and leave, the counter reads and
the external latch, and the vertical count of every instance (R210, R211, R220 to R227). -/

namespace Sys2Proof

/-- A Z80 variant has the byte ports and is no TMS (R3, R226). -/
theorem Variant.isByte_and_not_isTms_of_isZ80 {v : Variant} (h : v.isZ80 = true) :
    v.isByte = true ∧ v.isTms = false := by
  simpa [Variant.isZ80_eq] using h

end Sys2Proof

namespace Sys2Proof.Machine

/-! ### Status reads (R210 to R212) -/

/-- A status read's update draws nothing. -/
theorem State.statusUpdate_draws (t : Nat) (s : State) : (s.statusUpdate t).draws = s.draws := by
  rw [State.statusUpdate, State.dmaBusyUpdate_eq, State.fifoUpdate_draws]

/-- A status read's update changes at most bit 1 of the status word (R242, R279). -/
theorem State.getLsbD_statusUpdate (t : Nat) (s : State) {k : Nat} (hk : k ≠ 1) :
    (s.statusUpdate t).status.getLsbD k = s.status.getLsbD k := by
  rw [State.statusUpdate, State.dmaBusyUpdate_status, State.fifoUpdate_status]
  split
  · rw [getLsbD_clear_busy, decide_eq_true hk, Bool.and_true]
  · rfl

/-- Bits 5, 6, 7 of the value a status read composes are the stored ones (R47, R211). -/
theorem State.statusValue_statusUpdate_flags (t : Nat) (s : State) :
    (s.statusUpdate t).statusValue &&& 0x00E0#16 = s.status &&& 0x00E0#16 := by
  apply BitVec.eq_of_getLsbD_eq
  intro k hk
  rw [BitVec.getLsbD_and, BitVec.getLsbD_and, State.getLsbD_statusValue]
  by_cases hk1 : k = 1
  · simp [hk1]
  · rw [State.getLsbD_statusUpdate t s hk1]
    interval_cases k <;> simp

section

variable {s : State} {t : Nat}

theorem execCtrlR16_ready (h : PortReady s t) (hv : s.cfg.variant = .v68k) :
    exec (.ctrlR16 t) s =
      .next { State.statusUpdate t { s with lastT := t } with
        pending := false
        status := (State.statusUpdate t { s with lastT := t }).status &&& 0xFF1F#16
        draws := s.draws + 1
        out := ⟨some ((State.statusUpdate t { s with lastT := t }).statusValue |||
          (s.nextDraw &&& 0xFC00#16)), t, none⟩ } := by
  have hd := State.statusUpdate_draws t { s with lastT := t }
  simp only [exec, execCtrlR16, portAccess_ready h (congrArg Variant.isWord hv), andThen_next,
    State.drawn, State.statusClear, hd]
  rfl

theorem execCtrlR8_ready (h : PortReady s t) (hb : s.cfg.variant.isByte = true) :
    exec (.ctrlR8 t) s =
      .next { State.statusUpdate t { s with lastT := t } with
        pending := false
        status := (State.statusUpdate t { s with lastT := t }).status &&& 0xFF1F#16
        draws := s.draws + 1
        out := ⟨some ((s.status &&& 0x00E0#16) ||| (s.nextDraw &&& 0x001F#16)), t, none⟩ } := by
  have hd := State.statusUpdate_draws t { s with lastT := t }
  simp only [exec, execCtrlR8, portAccess_ready h hb, andThen_next, State.drawn, State.statusClear,
    hd, State.statusValue_statusUpdate_flags]
  rfl

end

/-- Settles O37: the free bits are the next draw; below bit 5 the update touches bit 1 alone. -/
theorem ctrlR16ReadsAndClears : Obligations.CtrlR16ReadsAndClears := by
  rintro s u t h hv rfl
  refine ⟨s.nextDraw, execCtrlR16_ready h hv, fun k hk hk1 => ?_⟩
  have hu := State.getLsbD_statusUpdate t { s with lastT := t } hk1
  rw [← State.statusUpdate, BitVec.getLsbD_and, hu]
  interval_cases k <;> simp

/-- Settles O38: the free bits are the next draw, the others the stored flags. -/
theorem ctrlR8ReadsAndClears : Obligations.CtrlR8ReadsAndClears := by
  rintro s u t h hb rfl
  exact ⟨s.nextDraw, execCtrlR8_ready h hb⟩

/-! ### Counter reads and the external latch (R220, R225, R226) -/

section

variable {s : State} {t : Nat}

theorem execHvR16_ready (h : PortReady s t) (hv : s.cfg.variant = .v68k) :
    exec (.hvR16 t) s = .next { s with lastT := t, out := ⟨some (s.hvValue t), t, none⟩ } := by
  simp only [exec, execHvR16, portAccess_ready h (congrArg Variant.isWord hv), andThen_next]
  rfl

theorem execVR8_ready (h : PortReady s t) (hz : s.cfg.variant.isZ80 = true) :
    exec (.vR8 t) s =
      .next { s with lastT := t, out := ⟨some ((s.vByte t).setWidth 16), t, none⟩ } := by
  obtain ⟨hb, ht⟩ := Variant.isByte_and_not_isTms_of_isZ80 hz
  simp only [exec, execVR8, portAccess_ready h hb, andThen_next, ht]
  rfl

theorem execHR8_ready (h : PortReady s t) (hz : s.cfg.variant.isZ80 = true) :
    exec (.hR8 t) s =
      .next { s with lastT := t, out := ⟨some ((s.hByte t).setWidth 16), t, none⟩ } := by
  obtain ⟨hb, ht⟩ := Variant.isByte_and_not_isTms_of_isZ80 hz
  simp only [exec, execHR8, portAccess_ready h hb, andThen_next, ht]
  rfl

theorem State.hvValue_live (t : Nat) (h : s.hvLatch = none) : s.hvValue t = s.hvLive t := by
  simp [State.hvValue, h]

theorem State.hvValue_latched {l : Word} (t : Nat) (h : s.hvLatch = some l) :
    s.hvValue t = if s.m5 then l else s.vByte t ++ loByte l := by
  simp [State.hvValue, h]

theorem State.hByte_live (t : Nat) (h : s.hvLatch = none) : s.hByte t = s.hCount t := by
  simp [State.hByte, h]

theorem State.hByte_latched {l : Word} (t : Nat) (h : s.hvLatch = some l) :
    s.hByte t = loByte l := by
  simp [State.hByte, h]

/-- The external latch input as one record, open or shut (R225). -/
theorem execLatchHv_ready (h : HostReady s t) :
    exec (.latchHv t) s =
      .next { s with
        lastT := t
        hvLatch := if s.latchOpen then some (s.hvLive t) else s.hvLatch
        out := ⟨none, t, none⟩ } := by
  have ho : ({ s with lastT := t } : State).latchOpen = s.latchOpen := rfl
  simp only [exec, execLatchHv, enter_ready (agent := .host) h nofun, andThen_next, ho]
  cases s.latchOpen <;> rfl

/-- The latch input is taken in Mode 4, and in Mode 5 where register 0 bit 1 enables it (R225). -/
theorem State.latchOpen_iff (s : State) :
    s.latchOpen = true ↔ s.m5 = false ∨ (s.rd 0).getLsbD 1 = true := by
  rw [State.latchOpen, State.hvLatchEn]
  cases s.m5 <;> simp

end

/-- Settles O41: one equation per read, then the latch's cases of the value. -/
theorem counterReads : Obligations.CounterReads := by
  rintro s t v h hp rfl rfl
  rw [← State.vByte, ← State.hCount]
  refine ⟨fun hv hl => ?_, fun l hv hl hm => ?_, fun l hv hl hm => ?_, fun hz => ?_,
    fun hz hl => ?_, fun l hz hl => ?_, fun hv => ⟨execVR8_tms hp hv, execHR8_tms hp hv⟩⟩
  · rw [execHvR16_ready hp hv, State.hvValue_live t hl, State.hvLive]
  · rw [execHvR16_ready hp hv, State.hvValue_latched t hl, if_pos hm]
  · rw [execHvR16_ready hp hv, State.hvValue_latched t hl, hm, if_neg Bool.false_ne_true, loByte]
  · rw [execVR8_ready hp hz]
  · rw [execHR8_ready hp hz, State.hByte_live t hl]
  · rw [execHR8_ready hp hz, State.hByte_latched t hl, loByte]

/-- Settles O42: the latch input's record, with the latch open and shut. -/
theorem latchHvFreezesLivePair : Obligations.LatchHvFreezesLivePair := by
  intro s t h
  refine ⟨fun ho => ?_, fun hm he => ?_⟩
  · rw [execLatchHv_ready h, if_pos (s.latchOpen_iff.mpr ho)]
    rfl
  · have ho : ¬ s.latchOpen = true := by
      rw [s.latchOpen_iff, hm, he]
      simp
    rw [execLatchHv_ready h, if_neg ho]

/-! ### The vertical count (R221, R222) -/

/-- The line count as a natural number: the line before, the last line of a frame before line 0 (R221). -/
theorem lineCount_eq {c : Config} (t : Nat) (hl : 0 < c.linesPerFrame) :
    lineCount c t =
      ((frameCycles c t / c.cyclesPerLine + c.linesPerFrame - 1) % c.linesPerFrame : Nat) := by
  rw [lineCount]
  generalize frameCycles c t / c.cyclesPerLine = line
  have hc : ((line + c.linesPerFrame - 1 : Nat) : Int) = (line : Int) - 1 + c.linesPerFrame := by
    omega
  rw [Int.natCast_emod, hc, Int.add_emod_right]

/-- The count before the interlaced form, over the natural line count (R221). -/
theorem State.verticalLine_eq {s : State} {k : Nat} (t : Nat)
    (hk : lineCount s.cfg t = (k : Int)) :
    s.verticalLine t =
      BitVec.ofInt 9 (if vcMax s.cfg s.renderMode s.displayLines < k then
        (k : Int) - (s.cfg.linesPerFrame : Int) else (k : Int)) := by
  simp only [State.verticalLine, hk, gt_iff_lt, Nat.cast_lt, apply_ite (BitVec.ofInt 9)]

/-- With `lsm = 01` the count is not shifted: bit 0 is replaced by bit 8 (R221). -/
theorem interlaced_single (v : BitVec 9) :
    interlaced false v = v.extractLsb' 1 8 ++ v.extractLsb' 8 1 := by
  apply BitVec.eq_of_getLsbD_eq
  intro i hi
  rw [interlaced, BitVec.getLsbD_append]
  interval_cases i <;> simp

/-- With `lsm = 11` bit 7 comes to stand at 8, and so at bit 0 (R221). -/
theorem interlaced_double (v : BitVec 9) :
    interlaced true v = v.extractLsb' 0 8 ++ v.extractLsb' 7 1 := by
  apply BitVec.eq_of_getLsbD_eq
  intro i hi
  rw [interlaced, BitVec.getLsbD_append]
  interval_cases i <;> simp

section

variable {s : State} (t : Nat)

theorem State.vCount_progressive (h : s.lsm.getLsbD 0 = false) :
    s.vCount t = s.verticalLine t := by
  simp only [State.vCount, State.interlace, h, Bool.false_eq_true, if_false]

theorem State.vCount_single (h : s.lsm = 0b01#2) :
    s.vCount t = (s.verticalLine t).extractLsb' 1 8 ++ (s.verticalLine t).extractLsb' 8 1 := by
  rw [← interlaced_single]
  simp [State.vCount, State.interlace, State.im2, h]

theorem State.vCount_double (h : s.lsm = 0b11#2) :
    s.vCount t = (s.verticalLine t).extractLsb' 0 8 ++ (s.verticalLine t).extractLsb' 7 1 := by
  rw [← interlaced_double]
  simp [State.vCount, State.interlace, State.im2, h]

end

/-- The low byte of an interlaced count (R220, R221). -/
theorem interlaced_byte (v : BitVec 9) (i : Nat) (b : BitVec 1) :
    (v.extractLsb' i 8 ++ b : BitVec 9).extractLsb' 0 8 = v.extractLsb' i 7 ++ b := by
  apply BitVec.eq_of_getLsbD_eq
  intro j hj
  rw [BitVec.getLsbD_extractLsb', BitVec.getLsbD_append, BitVec.getLsbD_append]
  interval_cases j <;> simp

/-- The line a time falls on is one of the frame's (R222). -/
theorem line_lt {c : Config} (t : Nat) (hc : 0 < c.cyclesPerLine) (hl : 0 < c.linesPerFrame) :
    frameCycles c t / c.cyclesPerLine < c.linesPerFrame :=
  Nat.div_lt_of_lt_mul (Nat.mod_lt t (Nat.mul_pos hc hl))

/-- The count of each line of a 262-line frame that jumps back past `0xEA` (R221). -/
theorem count_of_262_lines {line : Nat} (hl : line < 262) :
    BitVec.ofInt 9 (if 0xEA < (line + 262 - 1) % 262 then
        (((line + 262 - 1) % 262 : Nat) : Int) - ((262 : Nat) : Int)
      else (((line + 262 - 1) % 262 : Nat) : Int)) =
    BitVec.ofNat 9 (if line = 0 then 511 else if line ≤ 235 then line - 1 else line + 249) := by
  apply BitVec.eq_of_toNat_eq
  rw [BitVec.toNat_ofInt, BitVec.toNat_ofNat]
  split_ifs <;> omega

/-- The low byte of that count (R220, R221). -/
theorem countByte_of_262_lines {line : Nat} (hl : line < 262) :
    (BitVec.ofNat 9
        (if line = 0 then 511 else if line ≤ 235 then line - 1 else line + 249)).extractLsb' 0 8 =
      BitVec.ofNat 8
        (if line = 0 then 0xFF else if line ≤ 235 then line - 1 else line - 7) := by
  apply BitVec.eq_of_toNat_eq
  rw [BitVec.extractLsb'_toNat, BitVec.toNat_ofNat, BitVec.toNat_ofNat, Nat.shiftRight_zero]
  split_ifs <;> omega

/-- Settles O43: the count of any instance by the interlaced forms; with 262 lines by its three ranges. -/
theorem verticalByteOverAFrame : Obligations.VerticalByteOverAFrame := by
  rintro s t lines line limit k count hc hl rfl rfl hline hk hcount
  rw [← frameCycles] at hline
  have hlt : line < s.cfg.linesPerFrame := hline ▸ line_lt t hc hl
  have hv : s.verticalLine t = count := by
    rw [hcount]
    exact State.verticalLine_eq t (by rw [lineCount_eq t hl, ← hline, ← hk])
  refine ⟨hlt, fun h => ?_, fun h => ?_, fun h => ?_, fun h262 hEA => ?_⟩
  · rw [State.vCount_progressive t h, hv]
  · rw [State.vCount_single t h, hv]
  · rw [State.vCount_double t h, hv]
  · rw [h262] at hlt hk hcount
    rw [hEA, hk] at hcount
    have hn := hcount.trans (count_of_262_lines hlt)
    refine ⟨hn, fun h => ?_, fun h => ?_, fun h => ?_⟩
    · rw [State.vCount_progressive t h, hv, hn, countByte_of_262_lines hlt]
    · rw [State.vCount_single t h, hv, interlaced_byte]
    · rw [State.vCount_double t h, hv, interlaced_byte]

end Sys2Proof.Machine
end

section
/-! Proofs, the timing bits of the status word: which operations can change bits 2 to 7 (R214). -/

namespace Sys2Proof.Machine

/-! ### Bits 2 to 7 of the status word -/

/-- A mask within the timing bits is kept with them. -/
theorem and_of_timingBits {a b : Word} (m : Word) (hm : 0x00FC#16 &&& m = m)
    (h : a &&& 0x00FC#16 = b &&& 0x00FC#16) : a &&& m = b &&& m := by
  rw [← hm, ← BitVec.and_assoc, ← BitVec.and_assoc, h]

/-- What was already set is not newly set. -/
theorem and_and_not (a m : Word) : a &&& m &&& ~~~a = 0#16 := by
  rw [BitVec.and_comm a, BitVec.and_assoc, BitVec.and_not_self]
  exact BitVec.and_zero

/-- Bits 2 to 7 of the stored status word have a given value (R33, R214). -/
def HasTimingBits (w : Word) (s : State) : Prop := s.status &&& 0x00FC#16 = w

theorem hasTimingBits_congr {w : Word} {s n : State} (he : n.status = s.status)
    (h : HasTimingBits w s) : HasTimingBits w n := by rw [HasTimingBits, he]; exact h

theorem hasTimingBits_control (w : Word) : ControlKeeps (HasTimingBits w) where
  scratch hn h := by rw [hn]; exact h
  data _ h := h
  writeRegister i d t := hasTimingBits_congr (by simp)
  pointer _ h := h
  relatch h := h
  request _ := hasTimingBits_congr (by simp)

/-- A DMA step sets bit 1 of the stored bits alone (R276). -/
theorem hasTimingBits_dmaStepPlain {w : Word} (t : Nat) {s : State} (h : HasTimingBits w s) :
    HasTimingBits w (s.dmaStepPlain t).1 := by
  have hb : HasTimingBits w (s.stepBusy t) := by
    unfold State.stepBusy
    split
    · exact h
    · have ho : (s.status ||| 0x0002#16) &&& 0x00FC#16 = s.status &&& 0x00FC#16 := by
        rw [BitVec.and_or_distrib_right]
        exact BitVec.or_zero
      exact ho.trans h
  have ht : HasTimingBits w (s.dmaTransfer t) := hasTimingBits_congr (by simp [State.dmaTransfer]) hb
  obtain ⟨-, he⟩ | ⟨-, he⟩ := dmaStepPlain_cases s t <;> exact hasTimingBits_congr (by simp [he]) ht

/-- A DMA step keeps what its plain step and a control write's parts keep: it is the plain step, then the replay
of a deferred write where the request completes (R265, R273). -/
theorem ControlKeeps.dmaStep {P : State → Prop} (h : ControlKeeps P)
    (hp : ∀ t {s}, P s → P (s.dmaStepPlain t).1) (t : Nat) {s : State} (hs : P s) :
    P (s.dmaStep t).1 := by
  have h1 := hp t hs
  unfold State.dmaStep
  unfold State.dmaStepPlain at h1
  split at h1
  · rename_i h0
    rw [if_pos h0, State.dmaComplete, State.replay]
    split
    · exact h1
    · exact h.control hp (State.decodeDeferred_on _ _ _) (h.scratch (by rfl) h1)
  · rename_i h0
    rwa [if_neg h0]

theorem hasTimingBits_dmaStep {w : Word} (t : Nat) {s : State} (h : HasTimingBits w s) :
    HasTimingBits w (s.dmaStep t).1 :=
  (hasTimingBits_control w).dmaStep hasTimingBits_dmaStepPlain t h

theorem hasTimingBits_dataWrite16 {w : Word} (v : Word) (t : Nat) {s : State}
    (h : HasTimingBits w s) : HasTimingBits w (s.dataWrite16 v t).1 := by
  have hd : HasTimingBits w (s.dataStore16 v t) :=
    hasTimingBits_congr (by simp [State.dataStore16, State.noteData]) h
  unfold State.dataWrite16 State.fillStart
  split
  · split
    · exact hasTimingBits_dmaStep _ hd
    · exact hd
  · exact hd

/-- A status read's update keeps the timing bits; it may clear bit 1 (R279). -/
theorem hasTimingBits_statusUpdate {w : Word} (t : Nat) {s : State} (h : HasTimingBits w s) :
    HasTimingBits w (s.statusUpdate t) := by
  have hs : (s.statusUpdate t).status &&& 0x00FC#16 = s.status &&& 0x00FC#16 := by
    rw [State.statusUpdate, State.dmaBusyUpdate_status, State.fifoUpdate_status]
    split
    · exact BitVec.and_assoc _ _ _
    · rfl
  exact hs.trans h

/-- The operations that may change bits 2 to 7 (R214): the status reads, RASTER, RESET, DESERIALIZE. -/
def touchesTimingBits : Instr → Bool
  | .ctrlR16 _ | .ctrlR8 _ | .raster _ _ _ | .reset _ | .deserialize _ _ => true
  | _ => false

/-- The work of every other operation keeps the timing bits (R214). -/
theorem hasTimingBits_works {i : Instr} {s u : State} {w : Word}
    (hi : touchesTimingBits i = false) (hw : Works i s u) (h : HasTimingBits w s) :
    HasTimingBits w u := by
  cases hw with
  | control _ _ hv => exact (hasTimingBits_control w).control (fun t _ => hasTimingBits_dmaStep t) hv h
  | dataW16 _ => exact hasTimingBits_dataWrite16 _ _ h
  | dataW8 _ => exact hasTimingBits_congr (by simp [State.dataWrite8_eq]) h
  | dataR16 _ _ => exact hasTimingBits_congr (by simp) h
  | advance _ _ => exact hasTimingBits_dmaStep _ h
  | ctrlR16 | ctrlR8 | raster | reset | deserialize => cases hi
  | _ => exact h

/-- An operation outside those keeps the timing bits (R214). -/
theorem exec_timingBits {i : Instr} {s n : State} (hi : touchesTimingBits i = false)
    (h : exec i s = .next n) : n.status &&& 0x00FC#16 = s.status &&& 0x00FC#16 := by
  obtain ⟨u, o, rfl, hw⟩ := exec_eq_next h
  exact hasTimingBits_works (s := { s with lastT := instrTime i }) (u := u) hi hw rfl

/-- A status read keeps bits 2, 3, 4 and clears bits 5, 6, 7 (R210, R211). -/
theorem statusRead_timingBits {i : Instr} {t : Nat} {s n : State} (hi : i ∈ [.ctrlR16 t, .ctrlR8 t])
    (h : exec i s = .next n) :
    n.status &&& 0x001C#16 = s.status &&& 0x001C#16 ∧ n.status &&& 0x00E0#16 = 0#16 := by
  obtain ⟨u, o, rfl, hw⟩ := exec_eq_next h
  have hu : u.status = (State.statusUpdate t { s with lastT := instrTime i }).status &&& 0xFF1F#16 := by
    simp only [List.mem_cons, List.not_mem_nil, or_false] at hi
    obtain rfl | rfl := hi
    · cases hw with
      | ctrlR16 => rfl
      | _ => contradiction
    · cases hw with
      | ctrlR8 => rfl
      | _ => contradiction
  have hk : HasTimingBits _ (State.statusUpdate t { s with lastT := instrTime i }) :=
    hasTimingBits_statusUpdate t rfl
  rw [hu, BitVec.and_assoc, BitVec.and_assoc]
  exact ⟨and_of_timingBits 0x001C#16 rfl hk, BitVec.and_zero⟩

/-- RESET clears the status word (R44, R340). -/
theorem exec_reset_status {t : Nat} {s n : State} (h : exec (.reset t) s = .next n) :
    n.status = 0#16 := by
  obtain ⟨u, o, rfl, hw⟩ := exec_eq_next h
  cases hw with
  | reset => rfl
  | _ => contradiction

/-- Settles O40: the operations that touch no timing bit, then the five that may. -/
theorem onlyRasterSetsTimingBits : Obligations.OnlyRasterSetsTimingBits := by
  intro i s n h
  cases ht : touchesTimingBits i
  · have hk := exec_timingBits ht h
    have hflags := and_of_timingBits 0x00E0#16 rfl hk
    exact ⟨fun _ => and_of_timingBits 0x001C#16 rfl hk,
      fun _ _ => by rw [hflags, and_and_not], fun _ _ _ _ _ => hflags⟩
  · cases i with
    | ctrlR16 t =>
      obtain ⟨hkept, hcleared⟩ := statusRead_timingBits (t := t) (.head _) h
      exact ⟨fun _ => hkept, fun _ _ => by rw [hcleared, BitVec.zero_and],
        fun _ _ _ hr _ => absurd rfl (hr t)⟩
    | ctrlR8 t =>
      obtain ⟨hkept, hcleared⟩ := statusRead_timingBits (t := t) (.tail _ (.head _)) h
      exact ⟨fun _ => hkept, fun _ _ => by rw [hcleared, BitVec.zero_and],
        fun _ _ _ _ hr => absurd rfl (hr t)⟩
    | raster a b t =>
      exact ⟨nofun, fun hr _ => absurd rfl (hr a b t), fun hr _ _ _ _ => absurd rfl (hr a b t)⟩
    | reset t =>
      exact ⟨nofun, fun _ _ => by rw [exec_reset_status h, BitVec.zero_and, BitVec.zero_and],
        fun _ _ hr _ _ => absurd rfl (hr t)⟩
    | deserialize x t =>
      exact ⟨nofun, fun _ hd => absurd rfl (hd x t), fun _ hd _ _ _ => absurd rfl (hd x t)⟩
    | _ => cases ht

end Sys2Proof.Machine
end

section
/-! Proofs, the FIFO: how an update retires entries, how a write is charged, and the stall of the fifth of five
writes at one time (R242 to R244, R247). -/

namespace Sys2Proof.Machine

/-! ### The FIFO's update and its charge, by case (R242, R243) -/

/-- Active display, on the fields it reads (R244). -/
theorem State.active_iff (s : State) :
    s.active = true ↔ s.status.getLsbD 3 = false ∧ s.dispEn = true := by
  simp [State.active, State.vblank]

theorem State.inactive_iff (s : State) :
    s.active = false ↔ s.status.getLsbD 3 = true ∨ s.dispEn = false := by
  rw [State.active, State.vblank, Bool.and_eq_false_iff, Bool.not_eq_false']

section update

variable {s : State} {t : Nat}

theorem State.fifoUpdate_idle (h : s.m5 = false ∨ s.fifoCount = 0 ∨ t ≤ s.fifoLastWrite) :
    s.fifoUpdate t = s := if_pos h

theorem State.fifoUpdate_retires (hm : s.m5 = true) (hc : s.fifoCount ≠ 0)
    (ht : s.fifoLastWrite < t) :
    s.fifoUpdate t =
      { s with
        fifoCount := s.fifoCount - s.retired t
        fifoLastWrite := s.fifoLastWrite + s.retired t * s.fifoLatency } :=
  if_neg (by simp [hm, hc, ht])

theorem State.fifoCharge_slot (h : s.fifoCount < 4) :
    s.fifoCharge t =
      ({ s with
         fifoCount := s.fifoCount + 1
         fifoLastWrite := if s.fifoCount = 0 then t else s.fifoLastWrite }, t) := if_pos h

theorem State.fifoCharge_full (h : ¬ s.fifoCount < 4) :
    s.fifoCharge t =
      ({ s with fifoLastWrite := s.fifoLastWrite + s.fifoLatency }, t + s.fifoLatency) := if_neg h

theorem State.fifoNoteWrite_uncharged (h : s.m5 = false ∨ s.active = false) :
    s.fifoNoteWrite t = (s, t) := if_pos h

theorem State.fifoNoteWrite_charged (hm : s.m5 = true) (ha : s.active = true) :
    s.fifoNoteWrite t = (s.fifoUpdate t).fifoCharge t := if_neg (by simp [hm, ha])

end update

/-- Settles O29: the update and the charge by case, with Active() on the fields it reads. -/
theorem fifoUpdateAndCharge : Obligations.FifoUpdateAndCharge := by
  rintro s u t rfl
  refine ⟨State.fifoUpdate_idle, State.fifoUpdate_retires, fun h => ?_, fun hm hb hd => ?_⟩
  · exact State.fifoNoteWrite_uncharged (h.imp_right s.inactive_iff.mpr)
  · rw [State.fifoNoteWrite_charged hm (s.active_iff.mpr ⟨hb, hd⟩)]
    refine ⟨State.fifoCharge_slot, fun hfull => ?_⟩
    rw [State.fifoCharge_full hfull, State.fifoUpdate_fifoLatency]

/-! ### Data writes at one time (R247) -/

/-- The CPU may issue a 68000 data write at `t` that is charged and starts no fill (R170, R243). -/
structure ChargedWriteReady (t : Nat) (s : State) : Prop where
  port : PortReady s t
  v68k : s.cfg.variant = .v68k
  mode5 : s.m5 = true
  unarmed : s.fillArmed = false
  active : s.active = true

/-- The FIFO holds `k` writes, and no update up to `t` retires any of them (R242). -/
def HoldsUntil (t k : Nat) (s : State) : Prop := s.fifoCount = k ∧ (k = 0 ∨ t ≤ s.fifoLastWrite)

section

variable {t : Nat} {s : State}

theorem State.fifoNoteWrite_slot {k : Nat} (hm : s.m5 = true) (ha : s.active = true)
    (hh : HoldsUntil t k s) (hk : k < 4) :
    s.fifoNoteWrite t =
      ({ s with fifoCount := k + 1, fifoLastWrite := if k = 0 then t else s.fifoLastWrite }, t) := by
  obtain ⟨rfl, hu⟩ := hh
  rw [State.fifoNoteWrite_charged hm ha, State.fifoUpdate_idle (.inr hu), State.fifoCharge_slot hk]

theorem State.fifoNoteWrite_full (hm : s.m5 = true) (ha : s.active = true) (hh : HoldsUntil t 4 s) :
    s.fifoNoteWrite t =
      ({ s with fifoLastWrite := s.fifoLastWrite + s.fifoLatency }, t + s.fifoLatency) := by
  obtain ⟨h4, hu⟩ := hh
  rw [State.fifoNoteWrite_charged hm ha, State.fifoUpdate_idle (.inr (.inr (hu.resolve_left nofun))),
    State.fifoCharge_full h4.not_lt]

/-- The FIFO and the clock after such a write are those of its charge, and the CPU may issue the next write at the
same time (R170, R243). -/
theorem dataW16_charged (w : Word) {count last clock : Nat} (h : ChargedWriteReady t s)
    (hp : State.fifoNoteWrite t { s with lastT := t, pending := false } =
      ({ s with lastT := t, pending := false, fifoCount := count, fifoLastWrite := last }, clock)) :
    ∃ n, exec (.dataW16 w t) s = .next n ∧ ChargedWriteReady t n ∧ n.fifoLatency = s.fifoLatency ∧
      n.fifoCount = count ∧ n.fifoLastWrite = last ∧ n.out.clock = clock := by
  obtain ⟨hport, hv, hm, hf, ha⟩ := h
  obtain ⟨hexec, -, -⟩ := dataW16WritesThroughTheBus s w t _ hport hv hm hf hp.symm
  obtain ⟨⟨⟨hfault, href, -⟩, hstuck⟩, hfree⟩ := hport
  rw [State.busWrite_frame] at hexec
  exact ⟨_, hexec, ⟨⟨⟨⟨hfault, href, le_rfl⟩, hstuck⟩, hfree⟩, hv, hm, hf, ha⟩, rfl, rfl, rfl, rfl⟩

/-- A write while the FIFO has a free slot returns the time it came at (R243). -/
theorem dataW16_takes_slot (w : Word) {k : Nat} (hk : k < 4) (h : ChargedWriteReady t s)
    (hh : HoldsUntil t k s) :
    ∃ n, exec (.dataW16 w t) s = .next n ∧ ChargedWriteReady t n ∧ n.fifoLatency = s.fifoLatency ∧
      HoldsUntil t (k + 1) n ∧ n.out.clock = t := by
  obtain ⟨n, hn, hr, hl, hc, hw, ho⟩ := dataW16_charged w h
    (State.fifoNoteWrite_slot (s := { s with lastT := t, pending := false }) h.mode5 h.active hh hk)
  refine ⟨n, hn, hr, hl, ⟨hc, .inr ?_⟩, ho⟩
  rw [hw]
  by_cases h0 : k = 0
  · exact (if_pos h0).ge
  · exact (hh.2.resolve_left h0).trans_eq (if_neg h0).symm

/-- A write at capacity returns one FIFO latency later, and the count stays four (R243). -/
theorem dataW16_stalls (w : Word) (h : ChargedWriteReady t s) (hh : HoldsUntil t 4 s) :
    ∃ n, exec (.dataW16 w t) s = .next n ∧ n.fifoCount = 4 ∧ n.out.clock = t + s.fifoLatency := by
  obtain ⟨n, hn, -, -, hc, -, ho⟩ := dataW16_charged w h
    (State.fifoNoteWrite_full (s := { s with lastT := t, pending := false }) h.mode5 h.active hh)
  exact ⟨n, hn, hc.trans hh.1, ho⟩

end

/-- Settles O30: four writes take the four slots, each leaving the CPU ready for the next; the fifth stalls. -/
theorem fifthWriteStallsOneLatency : Obligations.FifthWriteStallsOneLatency := by
  intro s t w1 w2 w3 w4 w5 hport hv hm hf hb hd hc
  have h : ChargedWriteReady t s := ⟨hport, hv, hm, hf, s.active_iff.mpr ⟨hb, hd⟩⟩
  obtain ⟨s1, e1, r1, l1, h1, c1⟩ := dataW16_takes_slot w1 (by decide) h ⟨hc, .inl rfl⟩
  obtain ⟨s2, e2, r2, l2, h2, c2⟩ := dataW16_takes_slot w2 (by decide) r1 h1
  obtain ⟨s3, e3, r3, l3, h3, c3⟩ := dataW16_takes_slot w3 (by decide) r2 h2
  obtain ⟨s4, e4, r4, l4, h4, c4⟩ := dataW16_takes_slot w4 (by decide) r3 h3
  obtain ⟨s5, e5, h5, c5⟩ := dataW16_stalls w5 r4 h4
  rw [l4, l3, l2, l1] at c5
  exact ⟨s1, s2, s3, s4, s5, e1, e2, e3, e4, e5, c1, c2, c3, c4, h4.1, c5, h5⟩

end Sys2Proof.Machine
end

section
/-! Proofs, the control port while the CPU is frozen, and how a DMA starts: the one deferred write, the request a trigger
builds, ADVANCE, and the data write that starts an armed fill (R260 to R264, R278 to R283). -/

namespace Sys2Proof.Machine

/-! ### Accesses of a frozen CPU (R278, R281) -/

/-- Every control write is the shared `writeControl` on its effect (R130). -/
theorem exec_of_isControlWrite {i : Instr} (s : State) (hc : instrIsControlWrite i = true) :
    exec i s = controlWrite i.on (instrWord i) (instrTime i) (controlEffect State.dmaStep i) s := by
  cases i with
  | ctrlRw | ctrlA1 | ctrlA2 | ctrlB1 | ctrlB2Addr | ctrlB2Reg | ctrlT2Addr | ctrlT2Reg => rfl
  | _ => contradiction

section frozen

variable {s : State}

/-- A second control write to a frozen block faults (R281). -/
theorem controlWrite_overflow {ok : Variant → Bool} {v : Word} {t : Nat} {eff : State → State × Nat}
    (h : CpuReady s t) (hd : s.dmaType = some .vbusToVram) (hn : s.deferredCtrl ≠ none) :
    controlWrite ok v t eff s = .fault .deferredOverflow := by
  obtain ⟨w, hw⟩ := Option.ne_none_iff_exists'.mp hn
  simp [controlWrite, enter_ready h.1 fun _ => h.2, hd, deferWrite, hw]

theorem portAccess_andThen_frozen {ok : Variant → Bool} {t : Nat} {k : State → Res}
    (h : CpuReady s t) (hd : s.dmaType = some .vbusToVram) :
    andThen (portAccess ok t s) k = .fault .accessWhileFrozen := by
  rw [portAccess_frozen h hd, andThen_fault]

/-- Every port access of a frozen CPU but a control write faults (R278). -/
theorem exec_frozen {i : Instr} (hi : instrFromCpu i = true) (hc : instrIsControlWrite i = false)
    (h : CpuReady s (instrTime i)) (hd : s.dmaType = some .vbusToVram) :
    exec i s = .fault .accessWhileFrozen := by
  cases i with
  | dataW16 | dataW8 | dataR16 | dataR8 | ctrlR16 | ctrlR8 | hvR16 | vR8 | hR8 =>
    exact portAccess_andThen_frozen h hd
  | _ => contradiction

end frozen

/-- Settles O24: a control write by the state of the one slot, any other port access by `exec_frozen`. -/
theorem frozenCpuMayOnlyDefer : Obligations.FrozenCpuMayOnlyDefer := by
  intro i s h hd
  refine ⟨fun hc hn => ?_, fun hc hn => ?_, fun hi hc => exec_frozen hi hc h hd⟩
  · rw [exec_of_isControlWrite s hc, controlWrite_deferred h hd hn]
  · rw [exec_of_isControlWrite s hc, controlWrite_overflow h hd hn]

/-! ### The request a trigger builds (R260, R263, R264) -/

/-- The VBusToVram source is the high and low source registers above a 0 bit (R263). -/
theorem busSource_eq (a : BitVec 7) (b : Word) :
    a ++ b ++ 0#1 = a.setWidth 24 <<< 17 ||| b.setWidth 24 <<< 1 := by
  apply BitVec.eq_of_getLsbD_eq
  intro i hi
  rw [BitVec.getLsbD_append, BitVec.getLsbD_append]
  interval_cases i <;> simp

section trigger

variable {s : State} {step : Nat → State → State × Nat} {t : Nat}

theorem State.dmaTrigger_bus (h : s.dmaKind = .vbusToVram) :
    s.dmaTrigger step t = step t
      { s with
        dmaType := some .vbusToVram
        dmaSource := s.dmaSrcHi ++ s.dmaSrcLo ++ 0#1
        dmaRemaining := s.dmaLength
        fillArmed := false } := by
  simp [State.dmaTrigger, State.dmaRequest, h]

theorem State.dmaTrigger_fill (h : s.dmaKind = .vramFill) :
    s.dmaTrigger step t =
      ({ s with dmaType := some .vramFill, dmaRemaining := s.dmaLength, fillArmed := true }, t) := by
  simp [State.dmaTrigger, State.dmaRequest, h]

theorem State.dmaTrigger_copy (h : s.dmaKind = .vramCopy) :
    s.dmaTrigger step t = step t
      { s with
        dmaType := some .vramCopy
        dmaSource := s.dmaSrcLo.setWidth 24
        dmaRemaining := s.dmaLength
        fillArmed := false } := by
  simp [State.dmaTrigger, State.dmaRequest, h]

end trigger

/-- Settles O19: the kind by the two bits of register 23, then the request of that kind. -/
theorem dmaRequestFromRegisters : Obligations.DmaRequestFromRegisters := by
  rintro s step t L rfl
  have hkind : s.dmaKind = _ := dmaKind_bits (s.rd 23)
  refine ⟨fun h => ?_, fun h => ?_, fun h => ?_⟩
  · have hbus : s.dmaKind = .vbusToVram := by
      rw [hkind]
      rcases h with h | h <;> rw [h] <;> rfl
    rw [State.dmaTrigger_bus hbus, busSource_eq]
    rfl
  · rw [State.dmaTrigger_fill (by rw [hkind, h]; rfl)]
    rfl
  · rw [State.dmaTrigger_copy (by rw [hkind, h]; rfl)]
    rfl

/-! ### ADVANCE, and the byte an armed fill waits for (R280, R283) -/

section advance

variable {s : State} {t : Nat}

/-- What ADVANCE does from a state the host may act on. -/
theorem execAdvance_ready (h : HostReady s t) :
    exec (.advance t) s =
      if s.dmaType = none then .fault .advanceWithoutDma
      else if s.fillArmed then .next { s with lastT := t, out := ⟨none, t, none⟩ }
      else .next { (State.dmaStep t { s with lastT := t }).1 with
        out := ⟨none, (State.dmaStep t { s with lastT := t }).2, none⟩ } := by
  rw [exec, execAdvance, enter_ready h (by simp), andThen_next]
  rfl

theorem execAdvance_steps (h : HostReady s t) (hd : s.dmaType ≠ none) (hf : s.fillArmed = false) :
    exec (.advance t) s = .next { (State.dmaStep t { s with lastT := t }).1 with
      out := ⟨none, (State.dmaStep t { s with lastT := t }).2, none⟩ } := by
  rw [execAdvance_ready h, if_neg hd, hf]
  rfl

end advance

/-- Settles O44: the three branches of ADVANCE. -/
theorem advanceRunsOneStep : Obligations.AdvanceRunsOneStep := by
  refine fun s t h => ⟨fun hd => ?_, fun hd hf => ?_, fun hd hf => execAdvance_steps h hd hf⟩
  · rw [execAdvance_ready h, if_pos hd]
  · rw [execAdvance_ready h, if_neg hd, if_pos hf]

/-- A data write that finds a fill armed is stored, then gives the fill its byte (R170, R280). -/
theorem State.dataWrite16_armed {s : State} (w : Word) (t : Nat) (h : s.fillArmed = true) :
    s.dataWrite16 w t = ((s.noteData t).1.busWrite w).fillStart w (s.noteData t).2 := by
  simp [State.dataWrite16, State.dataStore16, State.noteData, h]

/-- Settles O28: the write starts the fill under the code the state has, which the store leaves. -/
theorem dataWriteStartsArmedFill : Obligations.DataWriteStartsArmedFill := by
  rintro s w t p b h hv hm hf rfl rfl
  have htarget : ((State.noteData t { s with lastT := t }).1.busWrite w).target =
      s.code.extractLsb' 0 4 := by
    rw [State.busWrite_target, State.noteData, State.fifoNoteWrite_target]
    rfl
  rw [execDataW16_ready w h hv hm, State.dataWrite16_armed (s := { s with lastT := t }) w t hf,
    State.fillStart, htarget]
  refine ⟨fun hc => ?_, fun hc => ?_⟩
  · rw [if_pos hc]
    rfl
  · rw [if_neg hc]
    rfl

end Sys2Proof.Machine
end

section
/-! Proofs, the transfer units: what one unit of each kind does, what a run of units moves, and the bytes a run of fill
units writes (R270 to R272). -/

namespace Sys2Proof.Machine

/-! ### Addresses and source cursors (R270 to R272) -/

/-- Flipping bit 0 of an address stays in its word (R271). -/
theorem flipped_toNat_div_two (a : Word) : (a ^^^ 1#16).toNat / 2 = a.toNat / 2 := by
  rw [BitVec.toNat_xor, Nat.xor_div_two]
  simp

/-- Flipping bit 0 of an address stays in its tile (R271). -/
theorem flipped_toNat_div_32 (a : Word) : (a ^^^ 1#16).toNat / 32 = a.toNat / 32 := by
  have := flipped_toNat_div_two a
  omega

/-- The increment as an address step, one more time than `n` (R172). -/
theorem add_increments_succ (a : Word) (i : Byte) (n : Nat) :
    a + BitVec.ofNat 16 (n * i.toNat) + i.setWidth 16 = a + BitVec.ofNat 16 ((n + 1) * i.toNat) := by
  rw [← BitVec.ofNat_toNat, BitVec.add_assoc, BitVec.ofNat_add_ofNat, Nat.succ_mul]

/-- The next VBusToVram source as a number: two bytes on inside its 128 KB window (R270). -/
theorem nextBusSource_eq (a : BitVec 24) :
    nextBusSource a = BitVec.ofNat 24 (a.toNat / 131072 * 131072 + (a.toNat + 2) % 131072) := by
  have hsplit : nextBusSource a =
      a.extractLsb' 17 7 ++ (a + 2#24).extractLsb' 0 17 := by
    unfold nextBusSource
    apply BitVec.eq_of_getLsbD_eq
    intro i hi
    rw [BitVec.getLsbD_append]
    interval_cases i <;> simp
  have := a.isLt
  apply BitVec.eq_of_toNat_eq
  rw [hsplit, append_toNat]
  simp only [BitVec.extractLsb'_toNat, BitVec.toNat_add, BitVec.toNat_ofNat,
    Nat.shiftRight_eq_div_pow]
  omega

theorem nextBusSource_toNat (a : BitVec 24) :
    (nextBusSource a).toNat = a.toNat / 131072 * 131072 + (a.toNat + 2) % 131072 := by
  have := a.isLt
  rw [nextBusSource_eq, BitVec.toNat_ofNat]
  omega

/-! ### One unit of each kind (R265, R270 to R272) -/

section unit

variable {s : State}

theorem State.dmaUnit_bus (h : s.dmaType = some .vbusToVram) : s.dmaUnit = s.unitBus := by
  simp [State.dmaUnit, h]

theorem State.dmaUnit_fill (h : s.dmaType = some .vramFill) : s.dmaUnit = s.unitFill := by
  simp [State.dmaUnit, h]

theorem State.dmaUnit_copy (h : s.dmaType = some .vramCopy) : s.dmaUnit = s.unitCopy := by
  simp [State.dmaUnit, h]

/-- A fill unit is its store with the address moved (R271). -/
theorem State.unitFill_eq (s : State) :
    s.unitFill =
      { s.vramPut (s.addr ^^^ 1#16) s.fillByte with addr := s.addr + s.inc.setWidth 16 } := by
  rw [State.unitFill, State.advance16, State.vramPut_addr, State.vramPut_inc]

/-- A copy unit is its store with both cursors moved (R272). -/
theorem State.unitCopy_eq (s : State) :
    s.unitCopy =
      { s.vramPut (s.addr ^^^ 1#16) (s.vram.read (s.copySource ^^^ 1#16).toNat) with
        addr := s.addr + s.inc.setWidth 16
        dmaSource := (s.copySource + 1#16).setWidth 24 } := by
  rw [State.unitCopy, State.vramPut_frame]
  rfl

/-- Every unit moves the address by the increment (R172, R270 to R272). -/
theorem State.dmaUnit_addr (h : s.dmaType ≠ none) :
    s.dmaUnit.addr = s.addr + s.inc.setWidth 16 := by
  obtain ⟨k, hk⟩ := Option.ne_none_iff_exists'.mp h
  cases k with
  | vbusToVram =>
    rw [State.dmaUnit_bus hk]
    exact s.drawn.busWrite_addr _
  | vramFill => rw [State.dmaUnit_fill hk, State.unitFill_eq]
  | vramCopy => rw [State.dmaUnit_copy hk, State.unitCopy_eq]

/-- A unit leaves every VRAM byte outside the word its address names. -/
theorem State.read_dmaUnit_other {j : Nat} (hj : j / 2 ≠ s.addr.toNat / 2) :
    s.dmaUnit.vram.read j = s.vram.read j := by
  have hflip : j ≠ (s.addr ^^^ 1#16).toNat := by
    rintro rfl
    exact hj (flipped_toNat_div_two s.addr)
  cases hk : s.dmaType with
  | none => rw [State.dmaUnit, hk]
  | some k =>
    cases k with
    | vbusToVram =>
      rw [State.dmaUnit_bus hk]
      show (s.drawn.busWrite (s.busRead s.dmaSource)).vram.read j = s.vram.read j
      rw [State.busWrite_vram]
      split
      · rw [State.read_vramWordWrite, State.drawn_addr, if_neg (by omega), if_neg (by omega),
          State.drawn_vram]
      · rw [State.drawn_vram]
    | vramFill =>
      rw [State.dmaUnit_fill hk, State.unitFill_eq]
      exact (s.read_vramPut _ _ j).trans (if_neg hflip)
    | vramCopy =>
      rw [State.dmaUnit_copy hk, State.unitCopy_eq]
      exact (s.read_vramPut _ _ j).trans (if_neg hflip)

/-- Only a VBusToVram unit reaches CRAM and VSRAM (R270 to R272). -/
theorem State.dmaUnit_cram_vsram (h : s.dmaType ≠ some .vbusToVram) :
    s.dmaUnit.cram = s.cram ∧ s.dmaUnit.vsram = s.vsram := by
  unfold State.dmaUnit
  split
  · contradiction
  · simp
  · simp
  · exact ⟨rfl, rfl⟩

/-- The copy source moves one byte on inside its 64 KB (R272). -/
theorem State.unitCopy_dmaSource_toNat (s : State) :
    s.unitCopy.dmaSource.toNat = (s.dmaSource.toNat + 1) % 65536 := by
  rw [State.unitCopy_eq]
  simp only [State.copySource, BitVec.toNat_setWidth, BitVec.toNat_add, BitVec.extractLsb'_toNat,
    BitVec.toNat_ofNat]
  omega

end unit

/-! ### A run of units (R265) -/

section units

variable {s : State}

/-- A run of units one longer ends with one unit more. -/
theorem State.dmaUnits_succ (n : Nat) (s : State) : s.dmaUnits (n + 1) = (s.dmaUnits n).dmaUnit := by
  induction n generalizing s with
  | zero => rfl
  | succ n ih => exact ih s.dmaUnit

theorem State.dmaUnits_addr (h : s.dmaType ≠ none) (n : Nat) :
    (s.dmaUnits n).addr = s.addr + BitVec.ofNat 16 (n * s.inc.toNat) := by
  induction n with
  | zero => simp [State.dmaUnits]
  | succ n ih =>
    rw [State.dmaUnits_succ, State.dmaUnit_addr (by simpa using h), ih, State.dmaUnits_inc,
      add_increments_succ]

theorem State.read_dmaUnits_other (h : s.dmaType ≠ none) {n j : Nat}
    (hj : ∀ k, k < n → j / 2 ≠ (s.addr + BitVec.ofNat 16 (k * s.inc.toNat)).toNat / 2) :
    (s.dmaUnits n).vram.read j = s.vram.read j := by
  induction n with
  | zero => rfl
  | succ n ih =>
    rw [State.dmaUnits_succ, State.read_dmaUnit_other, ih fun k hk => hj k (by omega)]
    rw [State.dmaUnits_addr h]
    exact hj n (Nat.lt_succ_self n)

theorem State.dmaUnits_cram_vsram (h : s.dmaType ≠ some .vbusToVram) (n : Nat) :
    (s.dmaUnits n).cram = s.cram ∧ (s.dmaUnits n).vsram = s.vsram := by
  induction n with
  | zero => exact ⟨rfl, rfl⟩
  | succ n ih =>
    obtain ⟨hc, hv⟩ := State.dmaUnit_cram_vsram (s := s.dmaUnits n) (by simpa using h)
    rw [State.dmaUnits_succ]
    exact ⟨hc.trans ih.1, hv.trans ih.2⟩

theorem State.dmaUnits_bus_dmaSource (h : s.dmaType = some .vbusToVram) (n : Nat) :
    (s.dmaUnits n).dmaSource.toNat =
      s.dmaSource.toNat / 131072 * 131072 + (s.dmaSource.toNat + 2 * n) % 131072 := by
  induction n with
  | zero =>
    show s.dmaSource.toNat = _
    omega
  | succ n ih =>
    rw [State.dmaUnits_succ, State.dmaUnit_bus (by simpa using h)]
    show (nextBusSource (s.dmaUnits n).dmaSource).toNat = _
    rw [nextBusSource_toNat, ih]
    omega

theorem State.dmaUnits_copy_dmaSource (h : s.dmaType = some .vramCopy)
    (hs : s.dmaSource.toNat < 65536) (n : Nat) :
    (s.dmaUnits n).dmaSource.toNat = (s.dmaSource.toNat + n) % 65536 := by
  induction n with
  | zero => exact (Nat.mod_eq_of_lt hs).symm
  | succ n ih =>
    rw [State.dmaUnits_succ, State.dmaUnit_copy (by simpa using h), State.unitCopy_dmaSource_toNat, ih]
    omega

end units

/-- Settles O47: a unit of each kind by its own record, and a run by induction on its length. -/
theorem dmaUnitsMoveTheirCursors : Obligations.DmaUnitsMoveTheirCursors := by
  refine ⟨fun s h => ?_, fun s h => ?_, ?_, fun n s h => ?_⟩
  · rw [State.dmaUnit_bus h, ← nextBusSource_eq]
    rfl
  · rw [State.dmaUnit_fill h, State.unitFill_eq]
  · rintro s b l base h rfl rfl rfl
    rw [State.dmaUnit_copy h, State.unitCopy_eq, ← State.copySource]
    refine ⟨fun j => s.read_vramPut _ _ j, fun tile => ?_, fun j => ?_, ?_⟩
    · rw [← flipped_toNat_div_32]
      exact s.mem_vramPut_dirty _ _ tile
    · rw [← if_congr (s.mirrored_iff _ j) rfl rfl]
      exact s.sat_read_vramPut _ _ j
    · rw [State.vramPut_frame]
  · exact ⟨s.dmaUnits_succ n, State.dmaUnits_addr h n, fun j => State.read_dmaUnits_other h,
      fun hb => State.dmaUnits_cram_vsram hb n, fun hb => State.dmaUnits_bus_dmaSource hb n,
      fun hc hs => State.dmaUnits_copy_dmaSource hc hs n⟩

/-! ### A run of fill units (R271) -/

section fill

variable {s : State} (h : s.dmaType = some .vramFill)

/-- The VRAM element the fill unit after `k` others writes (R271). -/
def State.fillIdx (s : State) (k : Nat) : Word :=
  (s.addr + BitVec.ofNat 16 (k * s.inc.toNat)) ^^^ 1#16

include h

/-- A run of fill units one longer puts the fill byte at one more element. -/
theorem State.fillUnits_succ (n : Nat) :
    s.dmaUnits (n + 1) =
      { (s.dmaUnits n).vramPut (s.fillIdx n) s.fillByte with
        addr := (s.dmaUnits n).addr + s.inc.setWidth 16 } := by
  rw [State.dmaUnits_succ, State.dmaUnit_fill (by simpa using h), State.unitFill_eq,
    State.dmaUnits_fillByte, State.dmaUnits_inc, State.fillIdx, ← State.dmaUnits_addr (by simp [h])]

/-- A run of fill units writes the fill byte at its elements and no other byte. -/
theorem State.read_fillUnits (n j : Nat) :
    (s.dmaUnits n).vram.read j =
      if ∃ k < n, j = (s.fillIdx k).toNat then s.fillByte else s.vram.read j := by
  induction n with
  | zero => simp [State.dmaUnits]
  | succ n ih =>
    rw [State.fillUnits_succ h]
    simp only [State.read_vramPut, ih, Nat.exists_lt_succ_right]
    by_cases hj : j = (s.fillIdx n).toNat <;> simp [hj]

/-- A run of fill units marks the tiles of the elements whose byte it changes and no other: an element met again
holds the fill byte already. -/
theorem State.mem_fillUnits_dirty (n tile : Nat) :
    tile ∈ (s.dmaUnits n).dirty ↔ tile ∈ s.dirty ∨
      ∃ k < n, tile = (s.fillIdx k).toNat / 32 ∧ s.vram.read (s.fillIdx k).toNat ≠ s.fillByte := by
  induction n with
  | zero => simp [State.dmaUnits]
  | succ n ih =>
    rw [State.fillUnits_succ h]
    simp only [State.mem_vramPut_dirty, ih, Nat.exists_lt_succ_right, State.read_fillUnits h]
    by_cases hm : ∃ k < n, (s.fillIdx n).toNat = (s.fillIdx k).toNat
    · obtain ⟨k, hk, he⟩ := hm
      have hn : tile = (s.fillIdx n).toNat / 32 ∧ s.vram.read (s.fillIdx n).toNat ≠ s.fillByte →
          ∃ k < n, tile = (s.fillIdx k).toNat / 32 ∧ s.vram.read (s.fillIdx k).toNat ≠ s.fillByte :=
        fun ht => ⟨k, hk, he ▸ ht⟩
      rw [if_pos ⟨k, hk, he⟩, or_iff_left_of_imp hn, or_iff_left fun ht => ht.2 rfl]
    · rw [if_neg hm, or_assoc]

/-- The SAT shadow after a run of fill units: the fill byte where an element in range is mirrored (R75). -/
theorem State.sat_read_fillUnits (n j : Nat) :
    (s.dmaUnits n).sat.read j =
      if ∃ k < n, s.inSat (s.fillIdx k) = true ∧ j = s.satIdx (s.fillIdx k) then s.fillByte
      else s.sat.read j := by
  induction n with
  | zero => simp [State.dmaUnits]
  | succ n ih =>
    rw [State.fillUnits_succ h]
    simp only [State.sat_read_vramPut, ih, Nat.exists_lt_succ_right, State.dmaUnits_inSat,
      State.dmaUnits_satIdx]
    by_cases hj : s.inSat (s.fillIdx n) = true ∧ j = s.satIdx (s.fillIdx n) <;> simp [hj]

/-- A run of fill units changes the address, VRAM, the dirty set and the SAT shadow, and nothing else. -/
theorem State.fillUnits_frame (n : Nat) :
    s.dmaUnits n =
      { s with
        addr := (s.dmaUnits n).addr
        vram := (s.dmaUnits n).vram
        dirty := (s.dmaUnits n).dirty
        sat := (s.dmaUnits n).sat } := by
  induction n with
  | zero => rfl
  | succ n ih => rw [State.fillUnits_succ h, State.vramPut_frame, ih]

end fill

/-- Settles O46: the three banks after the run, with the elements named as the statement has them. -/
theorem fillWritesItsAddresses : Obligations.FillWritesItsAddresses := by
  rintro n s f idx l base h rfl hidx hl rfl
  obtain rfl : idx = s.fillIdx := funext hidx
  have hmirror : ∀ k j, s.inSat (s.fillIdx k) = true ∧ j = s.satIdx (s.fillIdx k) ↔
      s.satRange.1.toNat ≤ l k ∧ l k < s.satRange.1.toNat + s.satRange.2 ∧
        j = l k - s.satRange.1.toNat := by
    intro k j
    rw [hl, State.mirrored_iff]
  refine ⟨State.dmaUnits_addr (by simp [h]) n, fun k hk => ?_, fun j hj => ?_,
    State.mem_fillUnits_dirty h n, fun k hk hlo hhi => ?_, fun j hj => ?_, State.fillUnits_frame h n⟩
  · rw [State.read_fillUnits h, if_pos ⟨k, hk, rfl⟩]
  · rw [State.read_fillUnits h, if_neg fun ⟨k, hk, he⟩ => hj k hk he]
  · rw [State.sat_read_fillUnits h, if_pos ⟨k, hk, (hmirror k _).mpr ⟨hlo, hhi, rfl⟩⟩]
  · rw [State.sat_read_fillUnits h, if_neg fun ⟨k, hk, hm⟩ => hj k hk ((hmirror k j).mp hm)]

end Sys2Proof.Machine
end

section
/-! Proofs, the DMA step: its budget, its completion, and the replay of a deferred control write as the ordinary one
it decodes to (R265 to R268, R273 to R277, R282). -/

namespace Sys2Proof.Machine

/-! ### The budget of a step (R265 to R268, R276, R277) -/

section budget

variable {s : State} {t : Nat}

theorem State.stepUnits_eq (t : Nat) (s : State) :
    s.stepUnits t = min s.dmaRemaining (s.dmaRoom t) := by
  unfold State.stepUnits
  split <;> omega

/-- The cycles of a step on its units (R267). -/
theorem State.stepCycles_eq (t : Nat) (s : State) :
    s.stepCycles t =
      if s.dmaRemaining < s.dmaRoom t then s.stepUnits t * s.cfg.cyclesPerLine / s.dmaRateNow
      else s.dmaWindow t := by
  unfold State.stepCycles State.stepUnits
  split <;> rfl

/-- The busy bit and the end of a step as one record, by the kind in flight (R276). -/
theorem State.stepBusy_eq {k : DmaKind} (t : Nat) (h : s.dmaType = some k) :
    s.stepBusy t =
      { s with
        status := if k = .vbusToVram then s.status else s.status ||| 0x0002#16
        dmaEndCycles := if k = .vbusToVram then s.dmaEndCycles else t + s.stepCycles t } := by
  by_cases hb : k = .vbusToVram
  · rw [State.stepBusy, if_pos (by rw [h, hb]), if_pos hb, if_pos hb]
  · rw [State.stepBusy, if_neg (by simpa [h] using hb), if_neg hb, if_neg hb]
    rfl

theorem State.dmaTransfer_dmaRemaining (t : Nat) (s : State) :
    (s.dmaTransfer t).dmaRemaining = s.dmaRemaining - s.stepUnits t := by
  simp [State.dmaTransfer]

/-- With no control write deferred a step is the plain one (R265, R273). -/
theorem State.dmaStep_of_undeferred (t : Nat) (h : s.deferredCtrl = none) :
    s.dmaStep t = s.dmaStepPlain t := by
  simp [State.dmaStep, State.dmaStepPlain, State.dmaComplete, State.replay, h]

theorem State.dmaStepPlain_short (h : s.stepUnits t < s.dmaRemaining) :
    s.dmaStepPlain t = (s.dmaTransfer t, s.stepClock t) := by
  have hr := State.dmaTransfer_dmaRemaining t s
  rw [State.dmaStepPlain, if_neg (by omega)]

theorem State.dmaStepPlain_completes (h : s.dmaRemaining ≤ s.stepUnits t) :
    s.dmaStepPlain t = ((s.dmaTransfer t).dmaFinish, s.stepClock t) := by
  have hr := State.dmaTransfer_dmaRemaining t s
  rw [State.dmaStepPlain, if_pos (by omega)]

theorem State.dmaStep_short (h : s.stepUnits t < s.dmaRemaining) :
    s.dmaStep t = (s.dmaTransfer t, s.stepClock t) := by
  have hr := State.dmaTransfer_dmaRemaining t s
  rw [State.dmaStep, if_neg (by omega)]

/-- A step that completes with a control write deferred replays it at the step's end (R273, R282). -/
theorem State.dmaStep_replays {v : Word} (h : s.dmaRemaining ≤ s.stepUnits t)
    (hv : s.deferredCtrl = some v) :
    s.dmaStep t =
      (State.replayWrite v (t + s.stepCycles t)
        { (s.dmaTransfer t).dmaFinish with deferredCtrl := none }, s.stepClock t) := by
  have hr := State.dmaTransfer_dmaRemaining t s
  rw [State.dmaStep, if_pos (by omega), State.dmaComplete, State.replay]
  simp [hv]

end budget

/-! ### Completion (R273, R274) -/

/-- A completion changes registers, and destroys the request. -/
theorem State.dmaFinish_frame (s : State) :
    s.dmaFinish = { s with reg := s.dmaFinish.reg, dmaType := none, fillArmed := false } := by
  unfold State.dmaFinish State.writebackIf State.sourceWriteback
  split
  · split <;> rfl
  · rfl

/-- The registers after the source is written back (R274). -/
theorem State.sourceWriteback_rd_of_kind {s : State} {k : DmaKind} (h : s.dmaType = some k)
    (j : BitVec 5) :
    s.sourceWriteback.rd j =
      if k = .vbusToVram ∧ j = 21#5 then s.dmaSource.extractLsb' 1 8
      else if k = .vbusToVram ∧ j = 22#5 then s.dmaSource.extractLsb' 9 8
      else if k = .vramCopy ∧ j = 21#5 then s.dmaSource.extractLsb' 0 8
      else if k = .vramCopy ∧ j = 22#5 then s.dmaSource.extractLsb' 8 8
      else s.rd j := by
  cases k with
  | vbusToVram =>
    simp only [State.sourceWriteback, h, State.rd_setReg]
    by_cases h22 : j = 22#5 <;> simp [h22]
  | vramFill => simp [State.sourceWriteback, h]
  | vramCopy =>
    simp only [State.sourceWriteback, h, State.rd_setReg]
    by_cases h22 : j = 22#5 <;> simp [h22]

/-- The registers after a completion: the length cleared, the source written back where the configuration says so
(R273, R274). -/
theorem State.dmaFinish_rd_of_kind {s : State} {k : DmaKind} (h : s.dmaType = some k) (j : BitVec 5) :
    s.dmaFinish.rd j =
      if j = 19#5 ∨ j = 20#5 then 0#8
      else if s.cfg.dmaSourceWriteback = true ∧ k = .vbusToVram ∧ j = 21#5 then
        s.dmaSource.extractLsb' 1 8
      else if s.cfg.dmaSourceWriteback = true ∧ k = .vbusToVram ∧ j = 22#5 then
        s.dmaSource.extractLsb' 9 8
      else if s.cfg.dmaSourceWriteback = true ∧ k = .vramCopy ∧ j = 21#5 then
        s.dmaSource.extractLsb' 0 8
      else if s.cfg.dmaSourceWriteback = true ∧ k = .vramCopy ∧ j = 22#5 then
        s.dmaSource.extractLsb' 8 8
      else s.rd j := by
  have hf : s.dmaFinish.rd j = s.clearLength.writebackIf.rd j := rfl
  have hclear : s.clearLength.rd j = if j = 19#5 ∨ j = 20#5 then 0#8 else s.rd j := by
    simp only [State.clearLength, State.rd_setReg]
    by_cases h20 : j = 20#5 <;> simp [h20]
  rw [hf, State.writebackIf, State.clearLength_cfg]
  cases s.cfg.dmaSourceWriteback with
  | false => simpa using hclear
  | true =>
    rw [if_pos rfl, State.sourceWriteback_rd_of_kind (k := k) (by simpa using h), hclear]
    by_cases hl : j = 19#5 ∨ j = 20#5
    · rcases hl with rfl | rfl <;> simp
    · simp [hl]

/-! ### What a step and a control write do not look at (R282; log entry 11) -/

/-- A state with the agents' part of another: the kept timestamp, the stuck mark, the output, the deferred write. -/
def State.withAgents (s b : State) : State :=
  { s with lastT := b.lastT, cpuStuck := b.cpuStuck, out := b.out, deferredCtrl := b.deferredCtrl }

section agents

variable (s b : State)

theorem State.vramStore_withAgents (i : Word) (v : Byte) :
    (s.withAgents b).vramStore i v = (s.vramStore i v).withAgents b := by
  by_cases h : s.vram.read i.toNat = v
  · rw [State.vramStore_of_same h]
    exact if_pos h
  · rw [State.vramStore_of_ne h]
    exact if_neg h

theorem State.satMirror_withAgents (i : Word) (v : Byte) :
    (s.withAgents b).satMirror i v = (s.satMirror i v).withAgents b := by
  have hin : (s.withAgents b).inSat i = s.inSat i := rfl
  unfold State.satMirror
  rw [hin]
  split <;> rfl

theorem State.vramPut_withAgents (i : Word) (v : Byte) :
    (s.withAgents b).vramPut i v = (s.vramPut i v).withAgents b := by
  rw [State.vramPut, State.vramStore_withAgents, State.satMirror_withAgents]
  rfl

theorem State.vramWordWrite_withAgents (a w : Word) :
    (s.withAgents b).vramWordWrite a w = (s.vramWordWrite a w).withAgents b := by
  rw [State.vramWordWrite, State.vramPut_withAgents, State.vramPut_withAgents]
  rfl

theorem State.cramWrite_withAgents (i : BitVec 6) (v : Colour) :
    (s.withAgents b).cramWrite i v = (s.cramWrite i v).withAgents b := by
  rw [State.cramWrite_eq, State.cramWrite_eq]
  rfl

theorem State.targetWrite_withAgents (w : Word) :
    (s.withAgents b).targetWrite w = (s.targetWrite w).withAgents b := by
  have ht : (s.withAgents b).target = s.target := rfl
  unfold State.targetWrite
  rw [ht]
  split
  · exact s.vramWordWrite_withAgents b _ w
  · split
    · exact s.cramWrite_withAgents b _ _
    · split <;> rfl

theorem State.unitBus_withAgents : (s.withAgents b).unitBus = s.unitBus.withAgents b := by
  have h := s.drawn.targetWrite_withAgents b (s.busRead s.dmaSource)
  exact congrArg (fun u : State => { u.advance16 with dmaSource := nextBusSource s.dmaSource }) h

theorem State.unitFill_withAgents : (s.withAgents b).unitFill = s.unitFill.withAgents b :=
  congrArg State.advance16 (s.vramPut_withAgents b _ _)

theorem State.unitCopy_withAgents : (s.withAgents b).unitCopy = s.unitCopy.withAgents b := by
  rw [State.unitCopy_eq, State.unitCopy_eq]
  exact congrArg (fun u : State => { u with
    addr := s.addr + s.inc.setWidth 16
    dmaSource := (s.copySource + 1#16).setWidth 24 }) (s.vramPut_withAgents b _ _)

theorem State.dmaUnit_withAgents : (s.withAgents b).dmaUnit = s.dmaUnit.withAgents b := by
  have ht : (s.withAgents b).dmaType = s.dmaType := rfl
  unfold State.dmaUnit
  rw [ht]
  split
  · exact s.unitBus_withAgents b
  · exact s.unitFill_withAgents b
  · exact s.unitCopy_withAgents b
  · rfl

theorem State.dmaUnits_withAgents (n : Nat) :
    (s.withAgents b).dmaUnits n = (s.dmaUnits n).withAgents b := by
  induction n with
  | zero => rfl
  | succ n ih => rw [State.dmaUnits_succ, ih, State.dmaUnit_withAgents, State.dmaUnits_succ]

theorem State.stepBusy_withAgents (t : Nat) :
    (s.withAgents b).stepBusy t = (s.stepBusy t).withAgents b := by
  have ht : (s.withAgents b).dmaType = s.dmaType := rfl
  unfold State.stepBusy
  rw [ht]
  split <;> rfl

theorem State.dmaTransfer_withAgents (t : Nat) :
    (s.withAgents b).dmaTransfer t = (s.dmaTransfer t).withAgents b := by
  have hu : (s.withAgents b).stepUnits t = s.stepUnits t := rfl
  have hr : (s.withAgents b).dmaRemaining = s.dmaRemaining := rfl
  rw [State.dmaTransfer, State.stepBusy_withAgents, hu, hr]
  exact State.dmaUnits_withAgents
    { s.stepBusy t with dmaRemaining := s.dmaRemaining - s.stepUnits t } b _

theorem State.dmaFinish_withAgents : (s.withAgents b).dmaFinish = s.dmaFinish.withAgents b := by
  have ht : (s.withAgents b).clearLength.dmaType = s.clearLength.dmaType := rfl
  have hc : (s.withAgents b).clearLength.cfg = s.clearLength.cfg := rfl
  unfold State.dmaFinish State.writebackIf State.sourceWriteback
  rw [ht, hc]
  split
  · split <;> rfl
  · rfl

theorem State.dmaStepPlain_withAgents (t : Nat) :
    ((s.withAgents b).dmaStepPlain t).1 = (s.dmaStepPlain t).1.withAgents b := by
  unfold State.dmaStepPlain
  rw [State.dmaTransfer_withAgents]
  show (if (s.dmaTransfer t).dmaRemaining = 0 then _ else _ : State × Nat).1 = _
  split
  · exact State.dmaFinish_withAgents _ b
  · rfl

theorem State.dmaRequest_withAgents : (s.withAgents b).dmaRequest = s.dmaRequest.withAgents b := by
  have hk : (s.withAgents b).dmaKind = s.dmaKind := rfl
  unfold State.dmaRequest
  rw [hk]
  cases s.dmaKind <;> rfl

theorem State.dmaTrigger_withAgents (t : Nat) :
    ((s.withAgents b).dmaTrigger State.dmaStepPlain t).1 =
      (s.dmaTrigger State.dmaStepPlain t).1.withAgents b := by
  have hk : (s.withAgents b).dmaKind = s.dmaKind := rfl
  unfold State.dmaTrigger
  rw [hk, State.dmaRequest_withAgents]
  cases s.dmaKind with
  | vbusToVram => exact State.dmaStepPlain_withAgents _ b t
  | vramFill => rfl
  | vramCopy => exact State.dmaStepPlain_withAgents _ b t

theorem State.commitA2_withAgents (t : Nat) :
    ((s.withAgents b).commitA2 State.dmaStepPlain t).1 =
      (s.commitA2 State.dmaStepPlain t).1.withAgents b := by
  have hd : (s.withAgents b).startsDma = s.startsDma := rfl
  have ht : (s.withAgents b).target = s.target := rfl
  unfold State.commitA2
  rw [hd, ht]
  split
  · exact s.dmaTrigger_withAgents b t
  · split
    · show (s.withAgents b).refill16 = s.refill16.withAgents b
      rw [State.refill16_eq, State.refill16_eq]
      rfl
    · rfl

theorem State.writeRegister_withAgents (i : BitVec 5) (d : Byte) (t : Nat) :
    (s.withAgents b).writeRegister i d t = (s.writeRegister i d t).withAgents b := by
  by_cases h : s.regIgnored i = true
  · rw [State.writeRegister_of_ignored d t h]
    exact State.writeRegister_of_ignored d t h
  · rw [State.writeRegister_of_not_ignored d t h]
    exact State.writeRegister_of_not_ignored d t h

theorem controlEffect_withAgents (i : Instr) :
    (controlEffect State.dmaStepPlain i (s.withAgents b)).1 =
      (controlEffect State.dmaStepPlain i s).1.withAgents b := by
  cases i with
  | ctrlRw ign idx data t => exact s.writeRegister_withAgents b idx data t
  | ctrlA2 hi cd mid a t => exact (s.latchA2 cd a).commitA2_withAgents b t
  | ctrlB2Addr cd a t =>
    simp only [controlEffect, State.effectB2Addr]
    split <;> rfl
  | ctrlB2Reg a t => exact (s.latchB2 0b10#2 a).writeRegister_withAgents b _ _ t
  | ctrlT2Addr rw a t =>
    simp only [controlEffect, State.effectT2Addr]
    split <;> rfl
  | ctrlT2Reg ign idx t =>
    exact State.writeRegister_withAgents { s with pending := false } b _ _ t
  | _ => rfl

end agents

/-! ### The replay of a deferred control write (R130, R273, R282) -/

section replay

variable {s : State}

/-- The access a deferred word is replayed as is decoded as the replay decodes the word (R130, R282). -/
theorem decode_deferred (s : State) (v : Word) (t : Nat) :
    decode s.cfg.variant s.pending
        (if s.cfg.variant = .v68k then .write16 .control v t
          else .write8 .control (v.extractLsb' 0 8) t) = .ok (s.decodeDeferred v t) := by
  unfold State.decodeDeferred
  cases s.cfg.variant <;> rfl

/-- A deferred word is replayed as a control write at the time of the replay (R282). -/
theorem State.decodeDeferred_controlWrite (s : State) (v : Word) (t : Nat) :
    instrIsControlWrite (s.decodeDeferred v t) = true ∧ instrTime (s.decodeDeferred v t) = t := by
  obtain ⟨he, -⟩ := encodeOfDecode _ _ _ _ (decode_deferred s v t)
  rw [instrIsControlWrite, instrTime, he]
  split <;> exact ⟨rfl, rfl⟩

/-- With no control write deferred a control write that starts a DMA runs the plain step (R282). -/
theorem controlEffect_of_undeferred (i : Instr) (h : s.deferredCtrl = none) :
    controlEffect State.dmaStep i s = controlEffect State.dmaStepPlain i s := by
  cases i with
  | ctrlA2 hi cd mid a t =>
    have hd : (s.latchA2 cd a).dmaRequest.deferredCtrl = none := by simpa using h
    simp only [controlEffect, State.effectA2, State.commitA2, State.dmaTrigger,
      State.dmaStep_of_undeferred t hd]
  | _ => rfl

/-- The replay of a deferred word is the control write it decodes to, with the agents' part of the state as it
was (R282; log entry 11). -/
theorem State.replayWrite_eq_exec {v : Word} {t : Nat} (hr : HostReady s t) (hu : Unfrozen s)
    (hd : s.deferredCtrl = none) :
    ∃ r : State, exec (s.decodeDeferred v t) { s with cpuStuck := false } = .next r ∧
      s.replayWrite v t =
        { r with lastT := s.lastT, cpuStuck := s.cpuStuck, out := s.out } := by
  obtain ⟨hc, ht⟩ := s.decodeDeferred_controlWrite v t
  have hon := s.decodeDeferred_on v t
  rw [State.replayWrite]
  generalize s.decodeDeferred v t = i at hc ht hon ⊢
  subst ht
  have hready : PortReady { s with cpuStuck := false } (instrTime i) := ⟨⟨hr, rfl⟩, hu⟩
  have he : exec i { s with cpuStuck := false } = _ :=
    (exec_of_isControlWrite _ hc).trans (controlWrite_ready hready hon)
  rw [controlEffect_of_undeferred (s := { s with cpuStuck := false, lastT := instrTime i }) i hd] at he
  have hself : (controlEffect State.dmaStepPlain i s).1 = _ := controlEffect_withAgents s s i
  have hmoved : (controlEffect State.dmaStepPlain i
      { s with cpuStuck := false, lastT := instrTime i }).1 = _ :=
    controlEffect_withAgents s { s with cpuStuck := false, lastT := instrTime i } i
  refine ⟨_, he, ?_⟩
  rw [hmoved, hself]
  generalize (controlEffect State.dmaStepPlain i s).1 = e
  rfl

end replay

/-! ### The whole of a step (R265, R273, R282) -/

section step

variable {s : State} {k : DmaKind} {t : Nat}

theorem State.dmaRateNow_eq (h : s.dmaType = some k) :
    s.dmaRateNow =
      if k = .vbusToVram then s.cfg.dmaRate.pick (s.status.getLsbD 3 || !s.dispEn) s.h40 / 2
      else s.cfg.dmaRate.pick (s.status.getLsbD 3 || !s.dispEn) s.h40 := by
  simp only [State.dmaRateNow, h, Option.some.injEq]
  rfl

theorem State.stepClock_eq (t : Nat) (h : s.dmaType = some k) :
    s.stepClock t = if k = .vbusToVram then t + s.stepCycles t else t := by
  simp only [State.stepClock, h, Option.some.injEq]

theorem State.dmaTransfer_eq (t : Nat) (h : s.dmaType = some k) :
    s.dmaTransfer t = State.dmaUnits (s.stepUnits t)
      { s with
        dmaRemaining := s.dmaRemaining - s.stepUnits t
        status := if k = .vbusToVram then s.status else s.status ||| 0x0002#16
        dmaEndCycles := if k = .vbusToVram then s.dmaEndCycles else t + s.stepCycles t } := by
  rw [State.dmaTransfer, State.stepBusy_eq t h]

theorem State.withAgents_undeferred {u : State} (h : u.withAgents s = u) :
    u.withAgents { s with deferredCtrl := none } = { u with deferredCtrl := none } := by
  rw [← h]
  rfl

/-- A deferred control write changes nothing of a step up to its replay (R273). -/
theorem State.dmaTransfer_undeferred (s : State) (t : Nat) :
    State.dmaTransfer t { s with deferredCtrl := none } =
      { s.dmaTransfer t with deferredCtrl := none } :=
  (s.dmaTransfer_withAgents { s with deferredCtrl := none } t).trans
    (State.withAgents_undeferred (s.dmaTransfer_withAgents s t).symm)

theorem State.dmaFinish_undeferred (s : State) :
    State.dmaFinish { s with deferredCtrl := none } = { s.dmaFinish with deferredCtrl := none } :=
  (s.dmaFinish_withAgents { s with deferredCtrl := none }).trans
    (State.withAgents_undeferred (s.dmaFinish_withAgents s).symm)

/-- A step that completes replays a deferred word as the control write it decodes to, on the state the step without
it leaves (R273, R282). -/
theorem State.dmaStep_replays_exec {v : Word} (h : s.dmaRemaining ≤ s.stepUnits t)
    (hv : s.deferredCtrl = some v) (hr : HostReady s t) :
    ∃ r : State,
      exec (s.decodeDeferred v (t + s.stepCycles t))
        { (s.dmaTransfer t).dmaFinish with deferredCtrl := none, cpuStuck := false } = .next r ∧
      s.dmaStep t =
        ({ r with lastT := s.lastT, cpuStuck := s.cpuStuck, out := s.out }, s.stepClock t) := by
  obtain ⟨hfault, href, ht⟩ := hr
  have hready : HostReady { (s.dmaTransfer t).dmaFinish with deferredCtrl := none }
      (t + s.stepCycles t) := by
    refine ⟨by simpa using hfault, by simpa using href, ?_⟩
    simp only [State.dmaFinish_lastT, State.dmaTransfer_lastT]
    omega
  have hi : State.decodeDeferred v (t + s.stepCycles t)
      { (s.dmaTransfer t).dmaFinish with deferredCtrl := none } =
        s.decodeDeferred v (t + s.stepCycles t) := by
    simp [State.decodeDeferred]
  obtain ⟨r, he, hw⟩ := State.replayWrite_eq_exec (v := v) hready nofun rfl
  rw [hi] at he
  refine ⟨r, he, ?_⟩
  rw [State.dmaStep_replays h hv, hw]
  simp

end step

/-- Settles O45: the budget by its definitions, then the step short of length 0 and at it, the deferred write by
`dmaStep_replays_exec`. -/
theorem dmaStepAccounting : Obligations.DmaStepAccounting := by
  intro s u t rate window room units cycles k hk hrate hwindow hroom hunits hcycles hu
  obtain rfl : rate = s.dmaRateNow := by rw [hrate, State.dmaRateNow_eq hk]
  obtain rfl : window = s.dmaWindow t := hwindow
  obtain rfl : room = s.dmaRoom t := hroom
  obtain rfl : units = s.stepUnits t := by rw [hunits, State.stepUnits_eq]
  obtain rfl : cycles = s.stepCycles t := by rw [hcycles, State.stepCycles_eq]
  obtain rfl : u = s.dmaTransfer t := by rw [hu, State.dmaTransfer_eq t hk]
  refine ⟨fun hf => if_pos hf, fun hn => ?_, ?_⟩
  · rw [State.dmaStep_of_undeferred t hn, ← State.stepClock_eq t hk]
    rcases Nat.lt_or_ge (s.stepUnits t) s.dmaRemaining with hlt | hge
    · exact ⟨_, State.dmaStepPlain_short hlt, fun _ => rfl, fun hge => absurd hge hlt.not_ge⟩
    · refine ⟨_, State.dmaStepPlain_completes hge, fun hlt => absurd hge hlt.not_ge, fun _ =>
        ⟨State.dmaFinish_frame _, fun j => ?_⟩⟩
      rw [State.dmaFinish_rd_of_kind (k := k) (by simpa using hk), State.dmaTransfer_cfg,
        State.dmaTransfer_rd]
  · intro v m c i hv hmc
    rw [State.dmaStep_of_undeferred (s := { s with deferredCtrl := none }) t rfl] at hmc
    refine ⟨fun hlt => ?_, fun hge hr hi => ?_⟩
    · rw [State.dmaStepPlain_short (s := { s with deferredCtrl := none }) hlt,
        State.dmaTransfer_undeferred] at hmc
      obtain ⟨rfl, rfl⟩ := Prod.mk.inj hmc
      have hd : (s.dmaTransfer t).deferredCtrl = some v := by simpa using hv
      rw [State.dmaStep_short hlt, ← hd]
      rfl
    · rw [State.dmaStepPlain_completes (s := { s with deferredCtrl := none }) hge,
        State.dmaTransfer_undeferred, State.dmaFinish_undeferred] at hmc
      obtain ⟨rfl, rfl⟩ := Prod.mk.inj hmc
      obtain rfl : s.decodeDeferred v (t + s.stepCycles t) = i :=
        Except.ok.inj ((decode_deferred s v _).symm.trans hi)
      exact State.dmaStep_replays_exec hge hv hr

end Sys2Proof.Machine
end

section
/-! Proofs, a request advanced once a line of active display: each line takes a rate's units or ends it (R284). -/

namespace Sys2Proof.Machine

/-- The host may advance a request at the start of a line of active display, no control write deferred (R284). -/
structure LineReady (t : Nat) (s : State) : Prop where
  config : s.cfg.ok = true
  host : HostReady s t
  inFlight : s.dmaType ≠ none
  unarmed : s.fillArmed = false
  undeferred : s.deferredCtrl = none
  active : s.vblank = false
  lineStart : t % s.cfg.cyclesPerLine = 0

section line

variable {s : State} {t : Nat}

/-- The window of a step at the start of a line is the line, which holds as many units as the rate says (R265). -/
theorem LineReady.stepUnits (h : LineReady t s) : s.stepUnits t = min s.dmaRemaining s.dmaRateNow := by
  have hok := h.config
  simp only [Config.ok, Bool.and_eq_true, decide_eq_true_eq] at hok
  obtain ⟨⟨⟨hpos, -⟩, -⟩, -⟩ := hok
  have hwindow : s.dmaWindow t = s.cfg.cyclesPerLine := by
    simp [State.dmaWindow, h.active, h.lineStart]
  rw [State.stepUnits_eq, State.dmaRoom, hwindow, Nat.mul_div_cancel_left _ hpos]

/-- A step sets the busy bit and leaves VBlank (R276). -/
theorem State.dmaTransfer_vblank (t : Nat) (s : State) : (s.dmaTransfer t).vblank = s.vblank := by
  rw [State.vblank, State.vblank, State.dmaTransfer, State.dmaUnits_status]
  show (s.stepBusy t).status.getLsbD 3 = _
  unfold State.stepBusy State.setDmaBusy
  split <;> simp

theorem State.dmaTransfer_dmaRateNow (t : Nat) (s : State) :
    (s.dmaTransfer t).dmaRateNow = s.dmaRateNow := by
  simp [State.dmaRateNow, State.blank, State.dmaTransfer_vblank]

/-- What an ADVANCE at the start of a line runs. -/
theorem LineReady.exec_advance (h : LineReady t s) :
    exec (.advance t) s = .next { (State.dmaStepPlain t { s with lastT := t }).1 with
      out := ⟨none, (State.dmaStepPlain t { s with lastT := t }).2, none⟩ } := by
  rw [execAdvance_steps h.host h.inFlight h.unarmed,
    State.dmaStep_of_undeferred (s := { s with lastT := t }) t h.undeferred]

/-- A line that does not end the request leaves it ready for the next one, a rate's units shorter. -/
theorem LineReady.advance_short (h : LineReady t s) (hr : s.dmaRateNow < s.dmaRemaining) :
    ∃ n, exec (.advance t) s = .next n ∧ LineReady (t + s.cfg.cyclesPerLine) n ∧
      n.dmaRateNow = s.dmaRateNow ∧ n.dmaRemaining = s.dmaRemaining - s.dmaRateNow := by
  have hunits : State.stepUnits t { s with lastT := t } = s.dmaRateNow :=
    h.stepUnits.trans (Nat.min_eq_right hr.le)
  have he := h.exec_advance
  rw [State.dmaStepPlain_short (s := { s with lastT := t }) (hunits.trans_lt hr)] at he
  obtain ⟨hc, ⟨hfault, href, -⟩, hd, hf, hn, ha, hl⟩ := h
  refine ⟨_, he, ⟨?_, ⟨?_, ?_, ?_⟩, ?_, ?_, ?_, ?_, ?_⟩, ?_, ?_⟩
  · simpa using hc
  · simpa using hfault
  · simpa using href
  · simp
  · simpa using hd
  · simpa using hf
  · simpa using hn
  · exact (State.dmaTransfer_vblank _ _).trans ha
  · simpa using hl
  · exact State.dmaTransfer_dmaRateNow t { s with lastT := t }
  · exact (State.dmaTransfer_dmaRemaining t { s with lastT := t }).trans (by rw [hunits])

/-- A line that holds what remains ends the request and clears the length registers. -/
theorem LineReady.advance_ends (h : LineReady t s) (hr : s.dmaRemaining ≤ s.dmaRateNow) :
    ∃ n, exec (.advance t) s = .next n ∧ n.dmaRemaining = 0 ∧ n.dmaType = none ∧
      n.rd 19 = 0#8 ∧ n.rd 20 = 0#8 := by
  have hunits : State.stepUnits t { s with lastT := t } = s.dmaRemaining :=
    h.stepUnits.trans (Nat.min_eq_left hr)
  have he := h.exec_advance
  rw [State.dmaStepPlain_completes (s := { s with lastT := t }) hunits.ge] at he
  obtain ⟨k, hk⟩ := Option.ne_none_iff_exists'.mp h.inFlight
  have hrd := State.dmaFinish_rd_of_kind (s := State.dmaTransfer t { s with lastT := t }) (k := k)
    (by simpa using hk)
  refine ⟨_, he, ?_, rfl, hrd 19, hrd 20⟩
  show (State.dmaTransfer t { s with lastT := t }).dmaFinish.dmaRemaining = 0
  rw [State.dmaFinish_dmaRemaining, State.dmaTransfer_dmaRemaining, hunits]
  exact Nat.sub_self _

/-- A request advanced at the start of each of the lines its remaining length needs ends at the last. -/
theorem LineReady.advanceLines_end (n : Nat) (h : LineReady t s)
    (hlo : n * s.dmaRateNow < s.dmaRemaining) (hhi : s.dmaRemaining ≤ (n + 1) * s.dmaRateNow) :
    ∃ m, advanceLines (n + 1) t s = .next m ∧ m.dmaRemaining = 0 ∧ m.dmaType = none ∧
      m.rd 19 = 0#8 ∧ m.rd 20 = 0#8 := by
  induction n generalizing t s with
  | zero =>
    obtain ⟨m, he, hm⟩ := h.advance_ends (by omega)
    rw [advanceLines, he]
    exact ⟨m, rfl, hm⟩
  | succ n ih =>
    rw [Nat.succ_mul] at hlo hhi
    obtain ⟨m, he, hm, hrate, hrem⟩ := h.advance_short (by omega)
    rw [advanceLines, he]
    refine ih hm ?_ ?_ <;> rw [hrate, hrem] <;> omega

end line

/-- Settles O48: by induction on the lines, each of which takes a rate's units or ends the request. -/
theorem lineByLineDmaEnds : Obligations.LineByLineDmaEnds := by
  intro n t s hc hh hd hf hn ha hl hpos hlo hhi
  obtain ⟨n, rfl⟩ := Nat.exists_eq_succ_of_ne_zero hpos.ne'
  exact LineReady.advanceLines_end n ⟨hc, hh, hd, hf, hn, ha, hl⟩ hlo hhi

end Sys2Proof.Machine
end

section
/-! Proofs, host operations (45_host_ops.md): RASTER, SERIALIZE and DESERIALIZE, and the status reads of a core
restored from a snapshot. -/

namespace Sys2Proof

/-- A bank in form has no byte below its first index. -/
theorem Memory.read_of_lt {lo size a : Nat} {m : Memory} (h : Memory.wfFrom lo size m = true)
    (ha : a < lo) : m.read a = 0#8 := by
  induction m generalizing lo with
  | nil => rfl
  | cons c m ih =>
    obtain ⟨k, v⟩ := c
    simp only [Memory.wfFrom, Bool.and_eq_true, decide_eq_true_eq] at h
    obtain ⟨⟨⟨hlo, -⟩, -⟩, hm⟩ := h
    rw [Memory.read_cons, if_neg (by omega)]
    exact ih hm (by omega)

/-- Copying a bank cell by cell, where the cell of index `i` is the one that lands at `j`, puts there the
byte of `i`, unless it is the unlisted 0. -/
theorem Memory.read_foldl {f : Memory → Host.Cell → Memory} {lo size i j : Nat} {m : Memory}
    (hf : ∀ n k v, k < size → (f n (k, v)).read j = if k = i then v else n.read j)
    (h : Memory.wfFrom lo size m = true) (n : Memory) :
    (m.foldl f n).read j = if m.read i = 0#8 then n.read j else m.read i := by
  induction m generalizing lo n with
  | nil => rfl
  | cons c m ih =>
    obtain ⟨k, v⟩ := c
    simp only [Memory.wfFrom, Bool.and_eq_true, decide_eq_true_eq] at h
    obtain ⟨⟨⟨-, hk⟩, hv⟩, hm⟩ := h
    rw [List.foldl_cons, ih hm, hf n k v hk, Memory.read_cons]
    by_cases hi : k = i
    · subst hi
      simp [Memory.read_of_lt hm (Nat.lt_succ_self k), hv]
    · simp [hi, Ne.symm hi]

end Sys2Proof

namespace Sys2Proof.Machine

/-- A host operation goes on from a ready state with its timestamp kept (R301). -/
theorem enter_host_andThen {t : Nat} {s : State} (h : HostReady s t) (k : State → Res) :
    andThen (enter .host t s) k = k { s with lastT := t } := by
  rw [enter_ready h (by simp), andThen_next]

/-! ### RASTER (R307) -/

/-- The bits of the status word after a raster input (R307). -/
theorem getLsbD_rasterStatus (setMask clearMask : Byte) (w : Word) (k : Nat) :
    (rasterStatus setMask clearMask w).getLsbD k =
      if 2 ≤ k ∧ k ≤ 7 then setMask.getLsbD k || (w.getLsbD k && !clearMask.getLsbD k)
      else w.getLsbD k := by
  rcases Nat.lt_or_ge k 16 with hk | hk
  · simp only [rasterStatus, BitVec.getLsbD_or, BitVec.getLsbD_and, BitVec.getLsbD_not,
      BitVec.getLsbD_setWidth]
    interval_cases k <;> simp [Bool.or_comm]
  · rw [BitVec.getLsbD_of_ge _ k hk, if_neg (by omega), BitVec.getLsbD_of_ge _ k hk]

/-- Settles O49: the word is the masked one, read bit by bit. -/
theorem rasterSetsTimingBits : Obligations.RasterSetsTimingBits := by
  intro s setMask clearMask t h
  refine ⟨_, getLsbD_rasterStatus setMask clearMask s.status, ?_⟩
  rw [exec, execRaster, enter_host_andThen h]
  rfl

/-! ### What DESERIALIZE rebuilds (R75, R305) -/

theorem State.logIdx_logIdx (s : State) (b : Word) : s.logIdx (s.logIdx b) = b := by
  unfold State.logIdx
  split
  · rw [BitVec.xor_assoc, BitVec.xor_self, BitVec.xor_zero]
  · rfl

/-- One VRAM cell mirrored into a SAT shadow that is being rebuilt (R75). -/
def State.mirrorCell (s : State) (m : Memory) (c : Host.Cell) : Memory :=
  if s.inSat (BitVec.ofNat 16 c.1) then m.write (s.satIdx (BitVec.ofNat 16 c.1)) c.2 else m

theorem State.satRebuilt_eq (s : State) : s.satRebuilt = s.vram.foldl s.mirrorCell [] := rfl

/-- The cell that lands at index `j` of the shadow is that of the logical address `satBase + j` (R75). -/
theorem State.read_mirrorCell {s : State} {j k : Nat} (hj : j < s.satRange.2)
    (hb : s.satRange.1.toNat + j < 65536) (hk : k < 65536) (m : Memory) (v : Byte) :
    (s.mirrorCell m (k, v)).read j =
      if k = (s.logIdx (BitVec.ofNat 16 (s.satRange.1.toNat + j))).toNat then v else m.read j := by
  have hcell : s.inSat (BitVec.ofNat 16 k) = true ∧ j = s.satIdx (BitVec.ofNat 16 k) ↔
      k = (s.logIdx (BitVec.ofNat 16 (s.satRange.1.toNat + j))).toNat := by
    rw [State.mirrored_iff]
    constructor
    · intro h
      have hl : s.logIdx (BitVec.ofNat 16 k) = BitVec.ofNat 16 (s.satRange.1.toNat + j) := by
        apply BitVec.eq_of_toNat_eq
        rw [BitVec.toNat_ofNat, Nat.mod_eq_of_lt hb]
        omega
      rw [← hl, State.logIdx_logIdx, BitVec.toNat_ofNat, Nat.mod_eq_of_lt hk]
    · rintro rfl
      rw [BitVec.ofNat_toNat, BitVec.setWidth_eq, State.logIdx_logIdx, BitVec.toNat_ofNat,
        Nat.mod_eq_of_lt hb]
      omega
  simp only [← hcell, State.mirrorCell]
  by_cases h : s.inSat (BitVec.ofNat 16 k) = true <;> simp [h, Memory.read_write]

/-- The rebuilt SAT shadow holds the VRAM bytes of the SAT's range (R75, R305). -/
theorem State.read_satRebuilt {s : State} {j : Nat} (hv : Memory.wf 65536 s.vram = true)
    (hj : j < s.satRange.2) (hb : s.satRange.1.toNat + j < 65536) :
    s.satRebuilt.read j =
      s.vram.read (s.logIdx (BitVec.ofNat 16 (s.satRange.1.toNat + j))).toNat := by
  rw [State.satRebuilt_eq, Memory.read_foldl (fun m k v hk => State.read_mirrorCell hj hb hk m v) hv]
  split
  · rename_i h0
    rw [h0]
    rfl
  · rfl

theorem execSerialize_ready {s : State} {t : Nat} (h : HostReady s t) :
    exec (.serialize t) s = .next
      { s with lastT := t, out := ⟨none, t, some (State.capture { s with lastT := t })⟩ } := by
  rw [exec, execSerialize, enter_host_andThen h]

theorem execDeserialize_ready {s : State} {t : Nat} (x : Snapshot) (h : HostReady s t) :
    exec (.deserialize x t) s = .next
      { State.restore x { s with lastT := t } with out := ⟨none, t, none⟩ } := by
  rw [exec, execDeserialize, enter_host_andThen h, finish]

/-- Settles O50: the captured fields, the caches and the latency by their definitions, the SAT shadow by
`read_satRebuilt`. -/
theorem saveStateOperations : Obligations.SaveStateOperations := by
  intro s t h
  have hready := h
  obtain ⟨hf, hr, -⟩ := h
  refine ⟨execSerialize_ready hready, fun x => ⟨_, execDeserialize_ready x hready, rfl,
    ⟨rfl, rfl, rfl⟩, rfl, fun k => ?_, fun hx j hj hb => ?_, rfl, hf, hr, rfl, rfl, rfl, rfl⟩⟩
  · simp only [State.restore, State.rebuild, allTiles, List.mem_range]
  · exact State.read_satRebuilt (s := State.restoreFields x { s with lastT := t })
      (bankForm_restore s hx).1 hj hb

/-! ### Status reads of a restored core (R210, R211, R305) -/

/-- A state with another's SAT shadow, dirty set, caches, events and output: what no status read looks at. -/
def State.withUnread (s b : State) : State :=
  { s with
    sat := b.sat
    dirty := b.dirty
    renderMode := b.renderMode
    displayLines := b.displayLines
    backdropColor := b.backdropColor
    inbox := b.inbox
    out := b.out }

section unread

variable (s b : State)

theorem State.fifoUpdate_withUnread (t : Nat) :
    (s.withUnread b).fifoUpdate t = (s.fifoUpdate t).withUnread b := by
  have hm : (s.withUnread b).m5 = s.m5 := rfl
  have hc : (s.withUnread b).fifoCount = s.fifoCount := rfl
  have hl : (s.withUnread b).fifoLastWrite = s.fifoLastWrite := rfl
  rw [State.fifoUpdate, State.fifoUpdate, hm, hc, hl]
  split <;> rfl

theorem State.dmaBusyUpdate_withUnread (t : Nat) :
    (s.withUnread b).dmaBusyUpdate t = (s.dmaBusyUpdate t).withUnread b := by
  have hb : (s.withUnread b).dmaBusy = s.dmaBusy := rfl
  have hd : (s.withUnread b).dmaType = s.dmaType := rfl
  have he : (s.withUnread b).dmaEndCycles = s.dmaEndCycles := rfl
  rw [State.dmaBusyUpdate, State.dmaBusyUpdate, hb, hd, he]
  split <;> rfl

theorem State.statusUpdate_withUnread (t : Nat) :
    (s.withUnread b).statusUpdate t = (s.statusUpdate t).withUnread b := by
  rw [State.statusUpdate, State.fifoUpdate_withUnread, State.dmaBusyUpdate_withUnread]
  rfl

theorem enter_withUnread (agent : Agent) (t : Nat) :
    enter agent t (s.withUnread b) =
      andThen (enter agent t s) fun u => .next (u.withUnread b) := by
  have hf : (s.withUnread b).faulted = s.faulted := rfl
  have hr : (s.withUnread b).refused = s.refused := rfl
  have hc : (s.withUnread b).cpuStuck = s.cpuStuck := rfl
  have ht : (s.withUnread b).lastT = s.lastT := rfl
  rw [enter, enter, hf, hr, hc, ht]
  cases s.faulted with
  | some f => rfl
  | none =>
    cases s.refused with
    | some q => rfl
    | none =>
      simp only
      split
      · rfl
      · split <;> rfl

theorem unfrozen_withUnread :
    unfrozen (s.withUnread b) = andThen (unfrozen s) fun u => .next (u.withUnread b) := by
  have hd : (s.withUnread b).dmaType = s.dmaType := rfl
  rw [unfrozen, unfrozen, hd]
  split <;> rfl

theorem onlyOn_withUnread (ok : Variant → Bool) :
    onlyOn ok (s.withUnread b) = andThen (onlyOn ok s) fun u => .next (u.withUnread b) := by
  have hc : (s.withUnread b).cfg = s.cfg := rfl
  rw [onlyOn, onlyOn, hc]
  split <;> rfl

/-- A chain whose parts do not look at the unread fields does not. -/
theorem andThen_withUnread {r : Res} {k : State → Res}
    (hk : ∀ u, k (u.withUnread b) = andThen (k u) fun u => .next (u.withUnread b)) :
    andThen (andThen r fun u => .next (u.withUnread b)) k =
      andThen (andThen r k) fun u => .next (u.withUnread b) := by
  cases r with
  | next u => exact hk u
  | fault f => rfl
  | refused q => rfl

theorem portAccess_withUnread (ok : Variant → Bool) (t : Nat) :
    portAccess ok t (s.withUnread b) =
      andThen (portAccess ok t s) fun u => .next (u.withUnread b) := by
  rw [portAccess, enter_withUnread, andThen_withUnread b (unfrozen_withUnread · b),
    andThen_withUnread b (onlyOn_withUnread · b ok)]
  rfl

/-- A status read answers the same value whatever its unread fields hold. -/
theorem statusRead_withUnread {ok : Variant → Bool} {value : State → Word} {t : Nat}
    (hv : ∀ u, value (State.withUnread u b) = value u) :
    (andThen (portAccess ok t (s.withUnread b)) fun u =>
        finish (some (value u)) t (u.statusUpdate t).statusClear.drawn) =
      andThen
        (andThen (portAccess ok t s) fun u =>
          finish (some (value u)) t (u.statusUpdate t).statusClear.drawn)
        fun u => .next (u.withUnread { b with out := u.out }) := by
  rw [portAccess_withUnread]
  cases portAccess ok t s with
  | next u =>
    simp only [andThen_next, hv, State.statusUpdate_withUnread]
    rfl
  | fault f => rfl
  | refused q => rfl

end unread

/-- An operation that does not look at the unread fields: only the output of its next state is its own. -/
def IgnoresUnread (i : Instr) : Prop :=
  ∀ s b, exec i (State.withUnread s b) =
    andThen (exec i s) fun u => .next (u.withUnread { b with out := u.out })

theorem ctrlR16_ignoresUnread (t : Nat) : IgnoresUnread (.ctrlR16 t) := fun s b =>
  statusRead_withUnread s b fun u => by rw [State.statusUpdate_withUnread]; rfl

theorem ctrlR8_ignoresUnread (t : Nat) : IgnoresUnread (.ctrlR8 t) := fun s b =>
  statusRead_withUnread s b fun u => by rw [State.statusUpdate_withUnread]; rfl

/-- The values a sequence of reads returns do not depend on the fields the reads do not look at. -/
theorem statusReads_withUnread {read : Nat → Instr} (h : ∀ t, IgnoresUnread (read t))
    (ts : List Nat) (s b : State) :
    statusReads read ts (s.withUnread b) = statusReads read ts s := by
  induction ts generalizing s b with
  | nil => rfl
  | cons t ts ih =>
    rw [statusReads, statusReads, h t s b]
    cases exec (read t) s with
    | next u => exact congrArg (Option.map (u.out.value :: ·)) (ih u _)
    | fault f => rfl
    | refused q => rfl

/-- A core restored from a snapshot is the captured one but for fields no status read looks at (R305). -/
theorem State.restored_eq_withUnread {s c n : State} {o : Output} (hn : n = { c.restore s.capture with out := o })
    (hc : c.cfg = s.cfg) (hl : s.fifoLatency = s.latencyNow) (hf : c.faulted = s.faulted)
    (hr : c.refused = s.refused) (hs : c.cpuStuck = s.cpuStuck) :
    { n with draws := s.draws } = s.withUnread n := by
  have hlatency : (c.restore s.capture).fifoLatency = s.fifoLatency := by
    rw [hl]
    exact State.latencyNow_congr hc rfl rfl
  simp only [hn, State.withUnread, State.mk.injEq, hlatency]
  simp only [State.restore, State.rebuild, State.restoreFields, State.capture, State.relatch,
    State.recomputeDerived, hc, hf, hr, hs, and_self]

/-- Settles O51: the restored core is the captured one but for its unread fields. -/
theorem snapshotRoundTrip : Obligations.SnapshotRoundTrip := by
  intro s s0 t hc h hs0 hf hr hs hl
  have hready := h
  obtain ⟨hf0, hr0, -⟩ := h
  obtain ⟨n, hn⟩ : ∃ n, n = { State.restore s.capture { s0 with lastT := t } with
    out := ⟨none, t, none⟩ } := ⟨_, rfl⟩
  have hread : { n with draws := s.draws } = s.withUnread n :=
    State.restored_eq_withUnread hn hc hl (hf0.trans hf.symm) (hr0.trans hr.symm) (hs0.trans hs.symm)
  refine ⟨n, hn ▸ execDeserialize_ready s.capture hready, hn ▸ rfl, hn ▸ rfl, hn ▸ rfl, hn ▸ rfl,
    fun ts => ?_, fun ts => ?_⟩
  · rw [hread, statusReads_withUnread ctrlR16_ignoresUnread]
  · rw [hread, statusReads_withUnread ctrlR8_ignoresUnread]

end Sys2Proof.Machine
end

section
/-! Proofs, time (R301, R326): every operation begins with the check of its timestamp, and its work moves
the kept timestamp only where it restores a snapshot's. -/

namespace Sys2Proof.Machine

/-! ### Every operation begins by entering (R301, R326) -/

theorem agentOf_eq_cpu {a : Access} (h : agentOf a = .cpu) : a.fromCpu = true := by
  by_contra hn
  simp [agentOf, hn] at h

/-- An operation that may step but comes too early faults (R301). -/
theorem enter_late {agent : Agent} {t : Nat} {s : State} (hf : s.faulted = none)
    (hr : s.refused = none) (hc : agent = .cpu → s.cpuStuck = false) (ht : t < s.lastT) :
    enter agent t s = .fault .timeReversal := by
  have hs : ¬ (agent = .cpu ∧ s.cpuStuck = true) := fun ⟨ha, hs⟩ => by simp [hc ha] at hs
  simp [enter, hf, hr, hs, ht]

/-- A port access begins by entering, whatever follows it (R326). -/
theorem portAccess_andThen_eq (ok : Variant → Bool) (t : Nat) (s : State) (k : State → Res) :
    andThen (portAccess ok t s) k =
      andThen (enter .cpu t s) fun u => andThen (andThen (unfrozen u) (onlyOn ok)) k := by
  rw [portAccess]
  cases enter .cpu t s <;> rfl

/-- Every operation enters at its timestamp as its agent, and goes on from there (R326). -/
theorem exec_eq_enter (i : Instr) (s : State) :
    ∃ k, exec i s = andThen (enter (agentOf (encode i)) (instrTime i) s) k := by
  cases i with
  | dataW16 | dataW8 | dataR16 | dataR8 | ctrlR16 | ctrlR8 | hvR16 | vR8 | hR8 =>
    exact ⟨_, portAccess_andThen_eq _ _ _ _⟩
  | _ => exact ⟨_, rfl⟩

/-- An operation that gives a next state was not too early (R301). -/
theorem lastT_le_of_exec {i : Instr} {s n : State} (h : exec i s = .next n) :
    s.lastT ≤ instrTime i := by
  obtain ⟨k, hk⟩ := exec_eq_enter i s
  obtain ⟨u, he, -⟩ := andThen_eq_next (hk ▸ h)
  obtain ⟨-, ⟨-, -, ht⟩, -⟩ := enter_eq_next he
  exact ht

/-! ### The kept timestamp through an operation's work -/

section work

variable (s : State)

@[simp] theorem State.dmaStepPlain_lastT (t : Nat) : (s.dmaStepPlain t).1.lastT = s.lastT := by
  obtain ⟨-, he⟩ | ⟨-, he⟩ := dmaStepPlain_cases s t <;> simp [he]

theorem State.dmaTrigger_lastT {step : Nat → State → State × Nat}
    (hstep : ∀ t u, (step t u).1.lastT = u.lastT) (t : Nat) :
    (s.dmaTrigger step t).1.lastT = s.lastT := by
  unfold State.dmaTrigger
  cases s.dmaKind <;> simp [hstep]

theorem State.commitA2_lastT {step : Nat → State → State × Nat}
    (hstep : ∀ t u, (step t u).1.lastT = u.lastT) (t : Nat) :
    (s.commitA2 step t).1.lastT = s.lastT := by
  unfold State.commitA2
  split
  · exact s.dmaTrigger_lastT hstep t
  · split
    · exact s.refill16_lastT
    · rfl

/-- A control write moves no timestamp where the DMA step it may run moves none (R282; log entry 11). -/
theorem controlEffect_lastT {step : Nat → State → State × Nat}
    (hstep : ∀ t u, (step t u).1.lastT = u.lastT) (i : Instr) :
    (controlEffect step i s).1.lastT = s.lastT := by
  cases i with
  | ctrlRw ign idx data t => exact s.writeRegister_lastT idx data t
  | ctrlA2 hi cd mid a t => exact (s.latchA2 cd a).commitA2_lastT hstep t
  | ctrlB2Addr cd a t =>
    simp only [controlEffect, State.effectB2Addr]
    split <;> rfl
  | ctrlB2Reg a t => exact (s.latchB2 0b10#2 a).writeRegister_lastT _ _ t
  | ctrlT2Addr rw a t =>
    simp only [controlEffect, State.effectT2Addr]
    split <;> rfl
  | ctrlT2Reg ign idx t => exact State.writeRegister_lastT { s with pending := false } _ _ t
  | _ => rfl

/-- The replay of a deferred control write moves no timestamp (log entry 11). -/
theorem State.replay_lastT (tEnd : Nat) : (s.replay tEnd).lastT = s.lastT := by
  unfold State.replay
  split
  · rfl
  · exact controlEffect_lastT _ (fun t u => u.dmaStepPlain_lastT t) _

@[simp] theorem State.dmaStep_lastT (t : Nat) : (s.dmaStep t).1.lastT = s.lastT := by
  unfold State.dmaStep State.dmaComplete
  split
  · simp [State.replay_lastT]
  · simp

theorem State.dataWrite16_lastT (w : Word) (t : Nat) : (s.dataWrite16 w t).1.lastT = s.lastT := by
  have hd : (s.dataStore16 w t).lastT = s.lastT := by simp [State.dataStore16, State.noteData]
  unfold State.dataWrite16 State.fillStart
  split
  · split
    · rw [State.dmaStep_lastT, hd]
    · exact hd
  · exact hd

theorem State.statusUpdate_lastT (t : Nat) : (s.statusUpdate t).lastT = s.lastT := by
  simp [State.statusUpdate]

end work

/-- The work of an operation keeps the timestamp, a restored snapshot's apart (R301; log entry 10). -/
theorem works_lastT {i : Instr} {s u : State} (hw : Works i s u) :
    u.lastT = s.lastT ∨ ∃ x t, i = .deserialize x t ∧ u.lastT = x.lastT := by
  cases hw with
  | deserialize => exact .inr ⟨_, _, rfl, rfl⟩
  | control _ _ _ => exact .inl (controlEffect_lastT _ (fun t u => u.dmaStep_lastT t) _)
  | dataW16 _ => exact .inl (s.dataWrite16_lastT _ _)
  | dataW8 _ => exact .inl (by simp [State.dataWrite8_eq])
  | dataR16 _ _ => exact .inl (by simp)
  | ctrlR16 | ctrlR8 => exact .inl (s.statusUpdate_lastT _)
  | advance _ _ => exact .inl (s.dmaStep_lastT _)
  | _ => exact .inl rfl

/-- Settles O52: entering checks the timestamp and keeps it, and the work leaves it. -/
theorem timeNeverRunsBack : Obligations.TimeNeverRunsBack := by
  intro i s hf hr
  refine ⟨fun ht hc => ?_, fun n h => ⟨lastT_le_of_exec h, ?_⟩⟩
  · obtain ⟨k, hk⟩ := exec_eq_enter i s
    rw [hk, enter_late hf hr (fun ha => hc (agentOf_eq_cpu ha)) ht, andThen_fault]
  · obtain ⟨u, o, rfl, hw⟩ := exec_eq_next h
    exact works_lastT hw

end Sys2Proof.Machine
end

section
/-! Proofs, faults and refusals (R320 to R326): what an operation raises itself and what it answers at its
beginning, that a mark ends the run, and that a stuck CPU is nothing to a host operation. -/

namespace Sys2Proof.Machine

/-! ### What entering raises (R301, R322, R325) -/

section enter

variable {agent : Agent} {t : Nat} {s : State} {f : Fault} {q : Refusal}

theorem enter_faulted (h : s.faulted = some f) : enter agent t s = .fault f := by simp [enter, h]

theorem enter_refused (hf : s.faulted = none) (h : s.refused = some q) :
    enter agent t s = .refused q := by simp [enter, hf, h]

theorem enter_stuck (hf : s.faulted = none) (hr : s.refused = none) (hs : s.cpuStuck = true) :
    enter .cpu t s = .fault .stuckInvalidRead := by simp [enter, hf, hr, hs]

/-- Entering faults at a mark, or by one of the two faults that come before any work (R326). -/
theorem enter_eq_fault (h : enter agent t s = .fault f) :
    s.faulted = some f ∨ f = .timeReversal ∨ f = .stuckInvalidRead := by
  cases hf : s.faulted with
  | some g => exact .inl (congrArg some (Host.Outcome.fault.inj ((enter_faulted hf).symm.trans h)))
  | none =>
    cases hr : s.refused with
    | some q => cases (enter_refused hf hr).symm.trans h
    | none =>
      simp only [enter, hf, hr] at h
      split at h
      · exact .inr (.inr (Host.Outcome.fault.inj h).symm)
      · split at h
        · exact .inr (.inl (Host.Outcome.fault.inj h).symm)
        · cases h

/-- Entering refuses only at a mark. -/
theorem enter_eq_refused (h : enter agent t s = .refused q) :
    s.faulted = none ∧ s.refused = some q := by
  cases hf : s.faulted with
  | some g => cases (enter_faulted hf).symm.trans h
  | none =>
    cases hr : s.refused with
    | some p =>
      exact ⟨rfl, congrArg some (Host.Outcome.refused.inj ((enter_refused hf hr).symm.trans h))⟩
    | none =>
      simp only [enter, hf, hr] at h
      split at h
      · cases h
      · split at h <;> cases h

end enter

/-! ### What an operation's own work raises (R320, R326) -/

/-- An outcome that is neither of the two faults entering alone raises. -/
def WorkOutcome : Res → Prop
  | .next _ => True
  | .fault f => f ≠ .timeReversal ∧ f ≠ .stuckInvalidRead
  | .refused _ => True

theorem workOutcome_finish (v : Option Word) (c : Nat) (s : State) : WorkOutcome (finish v c s) :=
  trivial

theorem workOutcome_refuse (q : Refusal) : WorkOutcome (refuse q) := trivial

theorem workOutcome_andThen {r : Res} {k : State → Res} (hr : WorkOutcome r)
    (hk : ∀ u, WorkOutcome (k u)) : WorkOutcome (andThen r k) := by
  cases r with
  | next u => exact hk u
  | fault f => exact hr
  | refused q => trivial

theorem workOutcome_unfrozen (s : State) : WorkOutcome (unfrozen s) := by
  unfold unfrozen
  split
  · exact ⟨nofun, nofun⟩
  · trivial

theorem workOutcome_onlyOn (ok : Variant → Bool) (s : State) : WorkOutcome (onlyOn ok s) := by
  unfold onlyOn
  split <;> trivial

theorem workOutcome_deferWrite (v : Word) (t : Nat) (s : State) :
    WorkOutcome (deferWrite v t s) := by
  unfold deferWrite
  split
  · trivial
  · exact ⟨nofun, nofun⟩

/-- An operation that enters at its timestamp as its agent, and whose work raises faults of its own only. -/
def EntersThenWorks (i : Instr) (s : State) : Prop :=
  ∃ k, exec i s = andThen (enter (agentOf (encode i)) (instrTime i) s) k ∧ ∀ u, WorkOutcome (k u)

theorem entersThenWorks_of_controlWrite {i : Instr} (s : State) (hc : instrIsControlWrite i = true)
    (ha : agentOf (encode i) = .cpu) : EntersThenWorks i s := by
  refine ⟨_, by rw [exec_of_isControlWrite s hc, ha]; rfl, fun u => ?_⟩
  split
  · exact workOutcome_deferWrite _ _ u
  · exact workOutcome_andThen (workOutcome_onlyOn _ u) fun _ => workOutcome_finish _ _ _

theorem entersThenWorks_of_portAccess {i : Instr} {s : State} {ok : Variant → Bool} {k : State → Res}
    (he : exec i s = andThen (portAccess ok (instrTime i) s) k) (ha : agentOf (encode i) = .cpu)
    (hk : ∀ u, WorkOutcome (k u)) : EntersThenWorks i s := by
  refine ⟨_, by rw [he, ha, portAccess_andThen_eq], fun u => ?_⟩
  exact workOutcome_andThen
    (workOutcome_andThen (workOutcome_unfrozen u) (workOutcome_onlyOn ok)) hk

theorem exec_entersThenWorks (i : Instr) (s : State) : EntersThenWorks i s := by
  cases i with
  | ctrlRw | ctrlA1 | ctrlA2 | ctrlB1 | ctrlB2Addr | ctrlB2Reg | ctrlT2Addr | ctrlT2Reg =>
    exact entersThenWorks_of_controlWrite s rfl rfl
  | dataW16 | vR8 | hR8 =>
    refine entersThenWorks_of_portAccess rfl rfl fun u => ?_
    split <;> trivial
  | dataR16 =>
    refine entersThenWorks_of_portAccess rfl rfl fun u => ?_
    split
    · split <;> trivial
    · trivial
  | dataW8 | dataR8 | ctrlR16 | ctrlR8 | hvR16 =>
    exact entersThenWorks_of_portAccess rfl rfl fun _ => workOutcome_finish _ _ _
  | advance =>
    refine ⟨_, rfl, fun u => ?_⟩
    split
    · exact ⟨nofun, nofun⟩
    · split <;> trivial
  | latchHv | raster | reset | serialize | deserialize => exact ⟨_, rfl, fun _ => trivial⟩

/-! ### The operation that faults or is refused, and every one after it (R321, R322; log entries 8, 25) -/

section raise

variable {i : Instr} {s : State} {f : Fault} {q : Refusal}

/-- An operation faults where it enters, or in its work from the state with the timestamp kept. -/
theorem exec_eq_fault (h : exec i s = .fault f) :
    enter (agentOf (encode i)) (instrTime i) s = .fault f ∨
    (enter (agentOf (encode i)) (instrTime i) s = .next { s with lastT := instrTime i } ∧
      f ≠ .timeReversal ∧ f ≠ .stuckInvalidRead) := by
  obtain ⟨k, hk, hown⟩ := exec_entersThenWorks i s
  rw [hk] at h
  cases he : enter (agentOf (encode i)) (instrTime i) s with
  | next u =>
    obtain ⟨rfl, -, -⟩ := enter_eq_next he
    rw [he] at h
    have hu := hown { s with lastT := instrTime i }
    rw [show k _ = .fault f from h] at hu
    exact .inr ⟨rfl, hu⟩
  | fault g => exact .inl (by rw [he] at h; exact h)
  | refused p => rw [he] at h; cases h

/-- An operation is refused where it enters, or in its work from the state with the timestamp kept. -/
theorem exec_eq_refused (h : exec i s = .refused q) :
    enter (agentOf (encode i)) (instrTime i) s = .refused q ∨
    enter (agentOf (encode i)) (instrTime i) s = .next { s with lastT := instrTime i } := by
  obtain ⟨k, hk⟩ := exec_eq_enter i s
  rw [hk] at h
  cases he : enter (agentOf (encode i)) (instrTime i) s with
  | next u => exact .inr (by rw [(enter_eq_next he).1])
  | fault g => rw [he] at h; cases h
  | refused p => exact .inl (by rw [he] at h; exact h)

theorem exec_faulted (h : s.faulted = some f) : exec i s = .fault f := by
  obtain ⟨k, hk⟩ := exec_eq_enter i s
  rw [hk, enter_faulted h, andThen_fault]

theorem exec_refused (hf : s.faulted = none) (h : s.refused = some q) : exec i s = .refused q := by
  obtain ⟨k, hk⟩ := exec_eq_enter i s
  rw [hk, enter_refused hf h, andThen_refused]

/-- The state a faulting operation leaves (R322): the timestamp is kept where the fault is its work's own. -/
theorem leave_of_fault (h : exec i s = .fault f) :
    leave (encode i) s (exec i s) =
      { s with
        lastT := if s.faulted = none ∧ f ≠ .timeReversal ∧ f ≠ .stuckInvalidRead then instrTime i
          else s.lastT
        faulted := some f } := by
  have hl : leave (encode i) s (exec i s) = { entered (encode i) s with faulted := some f } :=
    congrArg (leave (encode i) s) h
  rw [hl, entered]
  obtain he | ⟨he, hown⟩ := exec_eq_fault h <;> rw [← instrTime, he]
  · rw [if_neg]
    rintro ⟨hn, ht, hs⟩
    obtain hm | ht' | hs' := enter_eq_fault he
    · simp [hn] at hm
    · exact ht ht'
    · exact hs hs'
  · obtain ⟨-, ⟨hf, -, -⟩, -⟩ := enter_eq_next he
    rw [if_pos ⟨hf, hown⟩]

/-- The state a refused operation leaves (R10, R324). -/
theorem leave_of_refused (h : exec i s = .refused q) :
    s.faulted = none ∧
    leave (encode i) s (exec i s) =
      { s with lastT := if s.refused = none then instrTime i else s.lastT, refused := some q } := by
  have hl : leave (encode i) s (exec i s) = { entered (encode i) s with refused := some q } :=
    congrArg (leave (encode i) s) h
  rw [hl, entered]
  obtain he | he := exec_eq_refused h <;> rw [← instrTime, he]
  · obtain ⟨hf, hq⟩ := enter_eq_refused he
    exact ⟨hf, by rw [if_neg (by simp [hq])]⟩
  · obtain ⟨-, ⟨hf, hr, -⟩, -⟩ := enter_eq_next he
    exact ⟨hf, by rw [if_pos hr]⟩

/-- A step from a state whose mark no beginning goes past answers as that beginning does. -/
theorem step_of_marked {r : Res} (hidle : ∀ l, idle { s with inbox := l } = r)
    (henter : ∀ l agent t k, andThen (enter agent t { s with inbox := l }) k = r)
    (hturn : ∀ k, andThen r k = r) : step s = r := by
  unfold step
  split
  · exact hidle s.inbox
  · rename_i c rest _
    rw [rendererTurn, hidle, hturn]
  · rename_i a rest _
    split
    · exact hidle rest
    · split
      · rename_i i _
        obtain ⟨k, hk⟩ := exec_eq_enter i { s with inbox := rest }
        rw [hk, henter]
      · exact henter rest _ _ _

theorem step_faulted (h : s.faulted = some f) : step s = .fault f :=
  step_of_marked (fun _ => by simp [idle, h])
    (fun l _ _ _ => by rw [enter_faulted (s := { s with inbox := l }) h, andThen_fault])
    fun _ => rfl

theorem step_refused (hf : s.faulted = none) (h : s.refused = some q) : step s = .refused q :=
  step_of_marked (fun _ => by simp [idle, hf, h])
    (fun l _ _ _ => by rw [enter_refused (s := { s with inbox := l }) hf h, andThen_refused])
    fun _ => rfl

end raise

/-! ### A stuck CPU (R325; log entry 7) -/

section stuck

variable {i : Instr} {s : State}

theorem exec_stuck (hf : s.faulted = none) (hr : s.refused = none) (hs : s.cpuStuck = true)
    (hi : instrFromCpu i = true) : exec i s = .fault .stuckInvalidRead := by
  have ha : agentOf (encode i) = .cpu := if_pos hi
  obtain ⟨k, hk⟩ := exec_eq_enter i s
  rw [hk, ha, enter_stuck hf hr hs, andThen_fault]

theorem step_stuck {a : Access} {rest : List Event} (hf : s.faulted = none) (hr : s.refused = none)
    (hs : s.cpuStuck = true) (hb : s.inbox = .op a :: rest) (ha : a.fromCpu = true) :
    step s = .next { s with inbox := rest } := by
  simp only [step, hb, heldBack, ha, hs, Bool.and_self, if_true]
  exact idle_ready hf hr

/-- A state with its CPU stuck. -/
def State.withStuck (s : State) : State := { s with cpuStuck := true }

/-- What does not look at the agents' part of the state leaves a stuck CPU as it is. -/
theorem State.withStuck_comm {g : State → State}
    (hg : ∀ u b, g (State.withAgents u b) = (g u).withAgents b) (s : State) :
    g s.withStuck = (g s).withStuck := by
  have hself : g s = (g s).withAgents s := hg s s
  have hstuck : g s.withStuck = (g s).withAgents s.withStuck := hg s s.withStuck
  rw [hstuck, hself]
  rfl

theorem State.replayWrite_withAgents (v : Word) (t : Nat) (s b : State) :
    (s.withAgents b).replayWrite v t = (s.replayWrite v t).withAgents b :=
  congrArg State.relatch (controlEffect_withAgents s b (s.decodeDeferred v t))

theorem State.replay_withStuck (s : State) (t : Nat) :
    s.withStuck.replay t = (s.replay t).withStuck := by
  have hd : s.withStuck.deferredCtrl = s.deferredCtrl := rfl
  unfold State.replay
  rw [hd]
  split
  · rfl
  · rename_i v _
    exact State.withStuck_comm (State.replayWrite_withAgents v t) { s with deferredCtrl := none }

/-- A DMA step does not look at whether the CPU is stuck (R325). -/
theorem State.dmaStep_withStuck (s : State) (t : Nat) :
    s.withStuck.dmaStep t = ((s.dmaStep t).1.withStuck, (s.dmaStep t).2) := by
  have ht : s.withStuck.dmaTransfer t = (s.dmaTransfer t).withStuck :=
    State.withStuck_comm (fun u b => u.dmaTransfer_withAgents b t) s
  have hf : (s.dmaTransfer t).withStuck.dmaFinish = (s.dmaTransfer t).dmaFinish.withStuck :=
    State.withStuck_comm State.dmaFinish_withAgents _
  have hr : (s.dmaTransfer t).withStuck.dmaRemaining = (s.dmaTransfer t).dmaRemaining := rfl
  unfold State.dmaStep State.dmaComplete
  rw [ht, hr, hf, State.replay_withStuck]
  split <;> rfl

/-- A restored snapshot does not free the CPU (R305; log entry 7). -/
theorem State.restore_withStuck (x : Snapshot) (s : State) :
    s.withStuck.restore x = (s.restore x).withStuck := by
  rw [State.restore, State.restore, State.rebuild, State.rebuild]
  -- an opaque list keeps `rfl` from listing all 2048 tiles
  generalize allTiles = l
  rfl

/-- A host operation goes on from a stuck state as from any other. -/
theorem enter_host_withStuck {t : Nat} {n : State} {k : State → Res}
    (hk : ∀ u m, k u = .next m → k u.withStuck = .next m.withStuck)
    (h : andThen (enter .host t s) k = .next n) :
    andThen (enter .host t s.withStuck) k = .next n.withStuck := by
  obtain ⟨u, he, hn⟩ := andThen_eq_next h
  obtain ⟨rfl, hr, -⟩ := enter_eq_next he
  rw [enter_host_andThen (s := s.withStuck) hr]
  exact hk _ _ hn

/-- A host operation answers from a stuck state what it answers otherwise, the CPU still stuck (R325). -/
theorem exec_withStuck {n : State} (hi : instrFromCpu i = false) (h : exec i s = .next n) :
    exec i s.withStuck = .next n.withStuck := by
  cases i with
  | advance t =>
    refine enter_host_withStuck (fun u m hm => ?_) h
    have hd : u.withStuck.dmaType = u.dmaType := rfl
    have hf : u.withStuck.fillArmed = u.fillArmed := rfl
    rw [hd, hf, State.dmaStep_withStuck]
    split at hm
    · cases hm
    · rename_i hn
      rw [if_neg hn]
      split at hm <;> rename_i ha <;> cases hm
      · exact if_pos ha
      · exact if_neg ha
  | latchHv t =>
    refine enter_host_withStuck (fun u m hm => ?_) h
    have ho : u.withStuck.latchOpen = u.latchOpen := rfl
    cases hm
    rw [ho]
    split <;> rfl
  | deserialize x t =>
    refine enter_host_withStuck (fun u m hm => ?_) h
    rw [State.restore_withStuck]
    cases hm
    rfl
  | raster | reset | serialize =>
    exact enter_host_withStuck (fun u m hm => by cases hm; rfl) h
  | _ => cases hi

end stuck

/-- Settles O53: a fault and a refusal by where an operation raises them, the marks by what entering answers,
the stuck CPU by the operations that do not look at it. -/
theorem markedRunsStop : Obligations.MarkedRunsStop := by
  intro i j s f q
  refine ⟨fun h => ?_, fun h => ?_, step_faulted, fun hf hq => ⟨exec_refused hf hq, step_refused hf hq⟩,
    fun hf hr hs => ⟨exec_stuck hf hr hs, fun _ _ => step_stuck hf hr hs⟩,
    fun hj n => exec_withStuck hj⟩
  · have hl := leave_of_fault h
    exact ⟨hl, exec_faulted (by rw [hl])⟩
  · obtain ⟨hf, hl⟩ := leave_of_refused h
    exact ⟨hl, exec_refused (by rw [hl]; exact hf) (by rw [hl])⟩

end Sys2Proof.Machine
end

section
/-! Proofs, RESET (R340, R342): what the reset block is in a state with no mark, and what the operation answers. -/

namespace Sys2Proof.Machine

/-- The reset of an unmarked state is `create`'s state for its configuration, but for `lastT` and what is not
the block's (R340, R342). -/
theorem State.resetBlock_of_unmarked {s : State} (hf : s.faulted = none) (hr : s.refused = none) :
    s.resetBlock = { State.create s.cfg with
      lastT := s.lastT, cpuStuck := s.cpuStuck, inbox := s.inbox, draws := s.draws } := by
  rw [State.resetBlock, hf, hr]
  rfl

/-- Settles O2: entering a ready state moves `lastT` to `t`, and the block is then reset with no mark to keep. -/
theorem resetZeroesTheBlock : Obligations.ResetZeroesTheBlock := by
  intro s t h
  have ⟨hf, hr, _⟩ := h
  rw [exec, execReset, enter_host_andThen h,
    State.resetBlock_of_unmarked (s := { s with lastT := t }) hf hr]
  rfl

end Sys2Proof.Machine
end
